-- ==== Sys2Proof/Word.lean ====
section
/-!
DEFINITION. The word types of FAMI-PLLENC: `uN` of spec/00_scope.md R8 is `BitVec N`.
-/

namespace Sys2Proof

/-- A chip register, a register address, a byte on the bus, the PLL multiplier `mult` (R7). -/
abbrev Byte := BitVec 8

/-- An encoder operand or a packed word (R7: `OPND_W` and `W` are 32). -/
abbrev U32 := BitVec 32

/-- A command word, format CMD of spec/30_encoding.md R57. -/
abbrev CmdWord := BitVec 128

end Sys2Proof
end

