-- ==== Sys2Proof/Syntax.lean ====
section
/-!
DEFINITION. The operations of FAMI-PLLENC (spec/00_scope.md R3), their operands, the fields of a command word
(spec/30_encoding.md R57) and the names under which a reserved encoding is rejected (R60).
-/

namespace Sys2Proof

/-- The two PLLs (spec/42_synth_model.md R103). -/
inductive PllId where
  | a
  | b
deriving DecidableEq, Repr, Inhabited

/-- The three multisynth outputs (spec/42_synth_model.md R105). -/
inductive OutputId where
  | out0
  | out1
  | out2
deriving DecidableEq, Repr, Inhabited

/-- The crystal-load selector (spec/00_scope.md section 6: 6pF, 8pF, 10pF). -/
inductive CrystalLoad where
  | pf6
  | pf8
  | pf10
deriving DecidableEq, Repr, Inhabited

/-- The operation set, exactly the twelve of R3, in the order of the operation map R59. -/
inductive Instr where
  /-- ENC_PLL (R70). -/
  | encPll (mult : Byte) (num denom : U32)
  /-- ENC_MS (R71). -/
  | encMs (div num denom : U32)
  /-- PACK (R91). -/
  | pack (p1 p2 p3 : U32)
  /-- WR_REG (R92). -/
  | wrReg (addr val : Byte)
  /-- WR_DIVBLK (R93). -/
  | wrDivblk (base : Byte) (p1 p2 p3 : U32)
  /-- INIT (R100). -/
  | init (load : CrystalLoad)
  /-- SETUP_PLL (R102). -/
  | setupPll (id : PllId) (mult : Byte) (num denom : U32)
  /-- SETUP_MS (R104). -/
  | setupMs (out : OutputId) (src : PllId) (div num denom : U32)
  /-- ENABLE_OUTPUTS (R106). -/
  | enableOutputs (enabled : Bool)
  /-- CHANGE_FREQ (R126). -/
  | changeFreq (level : Bool)
  /-- BOOT (R122). -/
  | boot
  /-- POLL (R124 and R125). -/
  | poll
deriving DecidableEq, Repr

/-- The fields of a command word, named as R57 names them, lowest bits first. -/
structure CmdFields where
  /-- Bits 3:0. -/
  op : BitVec 4
  /-- Bits 5:4. -/
  id : BitVec 2
  /-- Bit 6. -/
  flag : BitVec 1
  /-- Bit 7, reserved, must be 0. -/
  zeroLo : BitVec 1
  /-- Bits 15:8. -/
  b8 : Byte
  /-- Bits 47:16. -/
  x : U32
  /-- Bits 79:48. -/
  n : U32
  /-- Bits 111:80. -/
  d : U32
  /-- Bits 127:112, reserved, must be 0. -/
  zeroHi : BitVec 16
deriving DecidableEq, Repr

/-- Why a command word stands for no operation (R60). -/
inductive DecodeError where
  /-- CMD bit 7 or bits 127:112 not zero. -/
  | reservedBits
  /-- `op` 12 to 15. -/
  | reservedOp
  /-- `id` 3 as `crystal_load`. -/
  | reservedCrystalLoad
  /-- `id` 2 or 3 as `pll_id`. -/
  | reservedPllId
  /-- `id` 3 as `output_id`. -/
  | reservedOutputId
deriving DecidableEq, Repr

end Sys2Proof
end

