-- ==== Sys2Proof/WellFormed.lean ====
section
/-!
DEFINITION. Which command words are legal (spec/30_encoding.md R60). An `Instr` needs no check of its own: its
identifiers are closed types and its other operands admit every value (spec/10_state.md R23: "the types above admit
every value"), so an ill-formed operation can only be written as the fields of a command word. The duties of the
caller (R168) are no well-formedness: nothing checks them (R108); they stand in Sys2Proof/Safety.lean.
-/

namespace Sys2Proof

/-- The two must-be-zero fields are zero (R60, `90_conflicts.md` C12). -/
def CmdFields.zeroOk (f : CmdFields) : Bool :=
  f.zeroLo == 0 && f.zeroHi == 0

/-- `op` is one of the twelve (R59, R60). -/
def CmdFields.opOk (f : CmdFields) : Bool :=
  f.op.toNat < 12

/-- `id` is not reserved for the operation that reads it (R60). -/
def CmdFields.idOk (f : CmdFields) : Bool :=
  match f.op.toNat with
  | 5 => f.id.toNat < 3
  | 6 => f.id.toNat < 2
  | 7 => f.id.toNat < 3
  | _ => true

/-- A command word's fields are those of an operation. -/
def CmdFields.wellFormed (f : CmdFields) : Bool :=
  f.zeroOk && f.opOk && f.idOk

end Sys2Proof
end

