-- ==== Sys2Proof/Decode.lean ====
section
/-!
DEFINITION. The decoder of command words and, after it, the encoder, both from the tables of spec/30_encoding.md
R57 and R59. The decoder is total on all 128-bit words and rejects a reserved encoding by name (R60); operand fields
an operation does not use are ignored (R57).
-/

namespace Sys2Proof

/-- The fields of a command word, at the bit positions of R57. -/
def cmdFields (w : CmdWord) : CmdFields where
  op := w.extractLsb' 0 4
  id := w.extractLsb' 4 2
  flag := w.extractLsb' 6 1
  zeroLo := w.extractLsb' 7 1
  b8 := w.extractLsb' 8 8
  x := w.extractLsb' 16 32
  n := w.extractLsb' 48 32
  d := w.extractLsb' 80 32
  zeroHi := w.extractLsb' 112 16

/-- `id` as `crystal_load`: 0 is 6pF, 1 is 8pF, 2 is 10pF (R57). -/
def decodeCrystalLoad (id : BitVec 2) : Except DecodeError CrystalLoad :=
  match id.toNat with
  | 0 => .ok .pf6
  | 1 => .ok .pf8
  | 2 => .ok .pf10
  | _ => .error .reservedCrystalLoad

/-- `id` as `pll_id`: 0 is A, 1 is B (R57). -/
def decodePllId (id : BitVec 2) : Except DecodeError PllId :=
  match id.toNat with
  | 0 => .ok .a
  | 1 => .ok .b
  | _ => .error .reservedPllId

/-- `id` as `output_id` (R57). -/
def decodeOutputId (id : BitVec 2) : Except DecodeError OutputId :=
  match id.toNat with
  | 0 => .ok .out0
  | 1 => .ok .out1
  | 2 => .ok .out2
  | _ => .error .reservedOutputId

/-- `flag` as `src_pll`: 0 is A, 1 is B (R57). -/
def decodeSrcPll (flag : BitVec 1) : PllId :=
  if flag = 1 then .b else .a

/-- `flag` as `enabled` or `level`: 1 is true (R57). -/
def decodeFlag (flag : BitVec 1) : Bool :=
  flag == 1

/-- The operation map R59. -/
def decodeFields (f : CmdFields) : Except DecodeError Instr :=
  if f.zeroOk then
    match f.op.toNat with
    | 0 => .ok (.encPll f.b8 f.n f.d)
    | 1 => .ok (.encMs f.x f.n f.d)
    | 2 => .ok (.pack f.x f.n f.d)
    | 3 => .ok (.wrReg f.b8 (f.x.extractLsb' 0 8))
    | 4 => .ok (.wrDivblk f.b8 f.x f.n f.d)
    | 5 => (decodeCrystalLoad f.id).map .init
    | 6 => (decodePllId f.id).map fun p => .setupPll p f.b8 f.n f.d
    | 7 => (decodeOutputId f.id).map fun o => .setupMs o (decodeSrcPll f.flag) f.x f.n f.d
    | 8 => .ok (.enableOutputs (decodeFlag f.flag))
    | 9 => .ok (.changeFreq (decodeFlag f.flag))
    | 10 => .ok .boot
    | 11 => .ok .poll
    | _ => .error .reservedOp
  else .error .reservedBits

/-- The operation a command word stands for, or the name of why it stands for none. -/
def decode (w : CmdWord) : Except DecodeError Instr :=
  decodeFields (cmdFields w)

/-- The instruction the decoder reads from a word numbered as spec/opcode_table.json numbers its bits; a word
that does not fit the 128 bits of format CMD is no command. -/
def decodeTableWord (nbits w : Nat) : Option Instr :=
  if w % 2 ^ nbits < 2 ^ 128 then (decode (BitVec.ofNat 128 (w % 2 ^ nbits))).toOption else none

/-- `crystal_load` as `id` (R57). -/
def CrystalLoad.code : CrystalLoad → BitVec 2
  | .pf6 => 0
  | .pf8 => 1
  | .pf10 => 2

/-- `pll_id` as `id` (R57). -/
def PllId.code : PllId → BitVec 2
  | .a => 0
  | .b => 1

/-- `output_id` as `id` (R57). -/
def OutputId.code : OutputId → BitVec 2
  | .out0 => 0
  | .out1 => 1
  | .out2 => 2

/-- `src_pll` as `flag` (R57). -/
def PllId.flag : PllId → BitVec 1
  | .a => 0
  | .b => 1

/-- The fields of no operation in particular: everything zero. An operation's fields are these with its own
written in; the fields it does not use stay zero (log 17). -/
def CmdFields.zero (op : BitVec 4) : CmdFields where
  op := op
  id := 0
  flag := 0
  zeroLo := 0
  b8 := 0
  x := 0
  n := 0
  d := 0
  zeroHi := 0

/-- The fields of an operation's command word (R59). -/
def encodeFields : Instr → CmdFields
  | .encPll mult num denom => { CmdFields.zero 0 with b8 := mult, n := num, d := denom }
  | .encMs div num denom => { CmdFields.zero 1 with x := div, n := num, d := denom }
  | .pack p1 p2 p3 => { CmdFields.zero 2 with x := p1, n := p2, d := p3 }
  | .wrReg addr val => { CmdFields.zero 3 with b8 := addr, x := val.setWidth 32 }
  | .wrDivblk base p1 p2 p3 => { CmdFields.zero 4 with b8 := base, x := p1, n := p2, d := p3 }
  | .init load => { CmdFields.zero 5 with id := load.code }
  | .setupPll p mult num denom => { CmdFields.zero 6 with id := p.code, b8 := mult, n := num, d := denom }
  | .setupMs o src div num denom =>
    { CmdFields.zero 7 with id := o.code, flag := src.flag, x := div, n := num, d := denom }
  | .enableOutputs enabled => { CmdFields.zero 8 with flag := BitVec.ofBool enabled }
  | .changeFreq level => { CmdFields.zero 9 with flag := BitVec.ofBool level }
  | .boot => CmdFields.zero 10
  | .poll => CmdFields.zero 11

/-- The word that carries the fields, at the bit positions of R57. -/
def CmdFields.toWord (f : CmdFields) : CmdWord :=
  f.zeroHi ++ f.d ++ f.n ++ f.x ++ f.b8 ++ f.zeroLo ++ f.flag ++ f.id ++ f.op

/-- The command word of an operation. -/
def encode (i : Instr) : CmdWord :=
  (encodeFields i).toWord

/-- The bits of a command word that the operation reads, and the bits that select it: the mask of
spec/opcode_table.json together with the operand fields that R59 lists. -/
def usedFields (i : Instr) : CmdFields :=
  let all : CmdFields := { CmdFields.zero 0xF with zeroLo := 1, zeroHi := 0xFFFF }
  match i with
  | .encPll .. => { all with b8 := 0xFF, n := 0xFFFFFFFF, d := 0xFFFFFFFF }
  | .encMs .. => { all with x := 0xFFFFFFFF, n := 0xFFFFFFFF, d := 0xFFFFFFFF }
  | .pack .. => { all with x := 0xFFFFFFFF, n := 0xFFFFFFFF, d := 0xFFFFFFFF }
  | .wrReg .. => { all with b8 := 0xFF, x := 0xFF }
  | .wrDivblk .. => { all with b8 := 0xFF, x := 0xFFFFFFFF, n := 0xFFFFFFFF, d := 0xFFFFFFFF }
  | .init .. => { all with id := 3 }
  | .setupPll .. => { all with id := 3, b8 := 0xFF, n := 0xFFFFFFFF, d := 0xFFFFFFFF }
  | .setupMs .. => { all with id := 3, flag := 1, x := 0xFFFFFFFF, n := 0xFFFFFFFF, d := 0xFFFFFFFF }
  | .enableOutputs .. => { all with flag := 1 }
  | .changeFreq .. => { all with flag := 1 }
  | .boot => all
  | .poll => all

/-- The used bits as a mask over the command word. -/
def usedMask (i : Instr) : CmdWord :=
  (usedFields i).toWord

end Sys2Proof
end

