-- ==== Sys2Proof/Config.lean ====
section
/-!
DEFINITION. The parameters of the hardware (spec/00_scope.md R7). A parameter the spec fixes is a definition; a
parameter it leaves OPEN is a constant without a body, so that what is proved holds for every value of it (log 7);
the level of a switch read is a free value in the same form (log 3).
-/

namespace Sys2Proof.Config

/-- How `frac` is computed (R72; `92_eei_decisions.md` D3). -/
inductive FracMode where
  /-- `FRAC_b32`, the hardware specified. -/
  | binary32
  /-- `FRAC_exact`, the named alternative. -/
  | exact
deriving DecidableEq, Repr

/-- Whether an out-of-range ratio raises `RangeError` (R142; D4). -/
inductive RangeCheck where
  /-- The hardware specified: silent truncation. -/
  | off
  /-- The named variant. -/
  | on
deriving DecidableEq, Repr

/-- The parameters that have a normative value and a named alternative; every meaning is written over them. -/
structure Variant where
  fracMode : FracMode
  rangeCheck : RangeCheck
deriving DecidableEq, Repr

/-- The hardware specified (R7: `FRAC_MODE` is `binary32`, `RANGE_CHECK` is `off`). -/
def specified : Variant where
  fracMode := .binary32
  rangeCheck := .off

/-- A PLL ratio `mult + num/denom` (R23). -/
structure PllRatio where
  mult : Byte
  num : U32
  denom : U32
deriving DecidableEq, Repr

/-- `PLLA_RATIO`, the NTSC ratio (R7, R121). -/
def pllaRatio : PllRatio where
  mult := 25
  num := 193181
  denom := 250000

/-- A PLL ratio whose denominator is at least 1, as D19 requires of `PLLB_RATIO`. -/
structure ProperRatio where
  mult : Byte := 0
  num : U32 := 0
  denom : U32 := 1
  denom_pos : denom ≠ 0 := by decide
deriving Inhabited

/-- `PLLB_RATIO`, the PAL ratio, OPEN (R7, R121). -/
opaque pllbRatio : ProperRatio

/-- `DIV_NTSC` (R7). -/
def divNtsc : U32 := 30

/-- `DIV_PAL` (R7). -/
def divPal : U32 := 26

/-- The three bytes of `XTAL_CODE`, pairwise different (R7; D9: "assumed injective"). -/
structure XtalCodes where
  pf6 : Byte := 0
  pf8 : Byte := 1
  pf10 : Byte := 2
  pf6_ne_pf8 : pf6 ≠ pf8 := by decide
  pf6_ne_pf10 : pf6 ≠ pf10 := by decide
  pf8_ne_pf10 : pf8 ≠ pf10 := by decide
deriving Inhabited

/-- The bytes written to register 183, OPEN (R7). -/
opaque xtalCodes : XtalCodes

/-- `XTAL_CODE(c)` (R7). -/
def xtalCode : CrystalLoad → Byte
  | .pf6 => xtalCodes.pf6
  | .pf8 => xtalCodes.pf8
  | .pf10 => xtalCodes.pf10

/-- `BOOT_XTAL`, the crystal load BOOT passes to INIT, OPEN (R7). -/
opaque bootXtal : CrystalLoad

/-- `PAL_LEVEL`, the switch level that indicates PAL, OPEN (R7, R130). -/
opaque palLevel : Bool

/-- `SW_PIN`, the switch pin, OPEN (R7). DESIGN CHOICE (log 7): a natural number names the pin. -/
opaque swPin : Nat

/-- `SW_MODE`, the pin mode of the switch, OPEN (R7). DESIGN CHOICE (log 7): a natural number names the mode. -/
opaque swMode : Nat

/-- A duration in milliseconds above 0, as D20 requires of `SETTLE_MS`. DESIGN CHOICE (log 7, unsafe): a whole number
of milliseconds; R7 and D20 say "in ms" and "> 0" only. -/
structure Duration where
  ms : Nat := 1
  ms_pos : 0 < ms := by decide
deriving Inhabited

/-- The settle interval, OPEN (R7). -/
opaque settle : Duration

/-- `SETTLE_MS` (R7). -/
def settleMs : Nat := settle.ms

/-- `CHIP_ADDR7`, the chip's bus address, OPEN (R7). -/
opaque chipAddr7 : BitVec 7

/-- `RW_WRITE`, the read/write bit that means write (R7). PRESUMED: the spec itself takes it from general
knowledge (`93_implementation_defined.md` G9; log 8). Unsafe, below the `RegWrite` abstraction only. -/
def rwWrite : BitVec 1 := 0

/-- The level the switch shows at the `k`-th pin read since reset, a free value (R123; log 3). -/
opaque freeLevel : Nat → Bool

end Sys2Proof.Config
end

