-- ==== Sys2Proof/Machine/State.lean ====
section
/-!
DEFINITION. The state of FAMI-PLLENC (spec/10_state.md), why a step can stop, and the state after reset (R25).
State is flat: the spec's `synth.*` and `mc.*` are fields of one record.
-/

namespace Sys2Proof.Machine

/-- The register image, one entry for each chip register written since reset (R14): addresses strictly rising,
all below 256 (`Memory.wf`). An address that is not listed reads as `none`, the spec's `None` (R25; log 13). -/
abbrev Memory := List Host.Cell

/-- `synth.state` (R23, R101). -/
inductive SynthState where
  | disabled
  | configured
deriving DecidableEq, Repr

/-- What `synth.pll[p]` holds (R23). -/
structure PllRecord where
  mult : Byte
  num : U32
  denom : U32
deriving DecidableEq, Repr

/-- What `synth.ms[o]` holds (R23). -/
structure MsRecord where
  div : U32
  num : U32
  denom : U32
  src : PllId
  intMode : Bool
deriving DecidableEq, Repr

/-- The sequencer position `mc.pc` (R20). -/
inductive Pc where
  | reset
  | idle
  | settle
deriving DecidableEq, Repr

/-- The events of the trace (R22). That a pin, a mode and a delay's milliseconds are natural numbers is the model's
DESIGN CHOICE (log 7). -/
inductive Event where
  | regWrite (addr val : Byte)
  | pinConfig (pin mode : Nat)
  | pinRead (level : Bool)
  | delay (ms : Nat)
deriving DecidableEq, Repr

/-- A packed triple (P1, P2, P3), three u32 (R10). -/
structure Triple where
  p1 : U32
  p2 : U32
  p3 : U32
deriving DecidableEq, Repr

/-- The eight pack bytes `B[0..7]` (R10). -/
structure Block where
  b0 : Byte
  b1 : Byte
  b2 : Byte
  b3 : Byte
  b4 : Byte
  b5 : Byte
  b6 : Byte
  b7 : Byte
deriving DecidableEq, Repr

/-- What an operation returns (spec/30_encoding.md R57, "Results"). -/
inductive OpResult where
  | nothing
  | triple (t : Triple)
  | block (b : Block)
deriving DecidableEq, Repr

/-- The whole machine. -/
structure State where
  /-- `synth.regs`, the register image (R14). -/
  regs : Memory
  /-- `synth.state` (R23). -/
  synthState : SynthState
  /-- `synth.xtal` (R23). -/
  xtal : Option CrystalLoad
  /-- `synth.pll[A]` (R23). -/
  pllA : Option PllRecord
  /-- `synth.pll[B]` (R23). -/
  pllB : Option PllRecord
  /-- `synth.ms[0]` (R23). -/
  ms0 : Option MsRecord
  /-- `synth.ms[1]` (R23). -/
  ms1 : Option MsRecord
  /-- `synth.ms[2]` (R23). -/
  ms2 : Option MsRecord
  /-- `mc.pc` (R20). -/
  pc : Pc
  /-- `mc.committed` (R21). -/
  committed : Option Bool
  /-- `trace`, oldest event first (R22). -/
  trace : List Event
  /-- The command words waiting on the test port, first first (R57). DESIGN CHOICE, log 2. -/
  port : List CmdWord
  /-- What the last operation returned (R57). DESIGN CHOICE, log 4. -/
  result : OpResult
  /-- The levels the environment will give to the coming pin reads, next first; when the list is empty a read takes
  `Config.freeLevel` (R123). DESIGN CHOICE, log 3. -/
  pinInput : List Bool
  /-- How many pin reads were made, the index of the next one. DESIGN CHOICE, log 3. -/
  pinReads : Nat
deriving DecidableEq, Repr

/-- The encoder operation that raised `RangeError` (spec/60_exceptions.md R142). -/
inductive EncoderOp where
  | encPll
  | encMs
deriving DecidableEq, Repr

/-- The information recorded by `RangeError`: "the operation and its three operands" (R142). -/
structure RangeError where
  op : EncoderOp
  a : U32
  num : U32
  denom : U32
deriving DecidableEq, Repr

/-- Why the machine stops with a fault. The hardware specified has none (R140). -/
inductive Fault where
  /-- `RangeError`, cause code 1, of the variant `RANGE_CHECK = on` (R142; U1 calls it a fault), with the state the
  block stands in from then on. Raised by the shared operations over a variant whose check is on, never by `exec`,
  which runs the hardware specified. Safe (log 6). -/
  | rangeError (e : RangeError) (stopped : State)
deriving DecidableEq, Repr

/-- Why the model gives a step no meaning. -/
inductive Refusal where
  /-- `exec` has no meaning for the instruction yet; no arm answers so. Safe. -/
  | notModelled (mnemonic : String)
  /-- `step` met a command word that R60 reserves ("refuse", U8). Safe (log 15). -/
  | reservedCommand (why : DecodeError)
  /-- ENC_PLL, ENC_MS, SETUP_PLL or SETUP_MS reached `FRAC(num, 0)` with `num != 0`, to which R82 gives no meaning
  ("refuse", U2). Safe (log 9). -/
  | fractionUndefined
  /-- BOOT issued when `mc.pc` is not `RESET` (R122, U6: "refuse"). Safe (log 10). -/
  | bootOutsideReset
  /-- POLL issued when `mc.pc` is `RESET` (R124, U6: "refuse"). Safe (log 10). -/
  | pollBeforeBoot
  /-- CHANGE_FREQ issued from outside the controller when `mc.pc` is `SETTLE` (U6: "refuse"). Safe (log 10). -/
  | changeFreqWhileSettling
  /-- A poll in a state whose `mc.committed` is `None`, which R124's precondition excludes; no run from reset reaches
  one. Safe (log 12). -/
  | pollWithoutCommitted
deriving DecidableEq, Repr

/-- The state after reset of the block, before BOOT (R25). The model's own four fields are empty (logs 2, 3, 4). -/
def State.reset : State where
  regs := []
  synthState := .disabled
  xtal := none
  pllA := none
  pllB := none
  ms0 := none
  ms1 := none
  ms2 := none
  pc := .reset
  committed := none
  trace := []
  port := []
  result := .nothing
  pinInput := []
  pinReads := 0

end Sys2Proof.Machine
end

