-- ==== Sys2Proof/Machine/Ops.lean ====
section
/-!
DEFINITION. The named operations over the state: the register image as memory, the trace, the single-register write
(spec/41_register_writer.md R92), the divider-block write (R93), the pin and delay primitives (spec/00_scope.md R9),
the records of the Synthesizer Model, the sequencer, and the one exception of the `RANGE_CHECK = on` variant
(spec/60_exceptions.md R142).
-/

namespace Sys2Proof.Machine

/-- The outcome of an operation. -/
abbrev Out := Host.Outcome State Fault Refusal

/-- Runs `k` on the next state; a fault or a refusal ends the sequence there. -/
def andThen (o : Out) (k : State → Out) : Out :=
  match o with
  | .next s => k s
  | .fault r => .fault r
  | .refused r => .refused r

/-! ### The register image (R14) -/

/-- What the image holds at an address: the last byte written there, or `none` (R14). -/
def Memory.read : Memory → Nat → Option Byte
  | [], _ => none
  | (b, w) :: m, a => if a = b then some w else Memory.read m a

/-- Records a byte at an address, keeping addresses strictly rising. -/
def Memory.write : Memory → Nat → Byte → Memory
  | [], a, v => [(a, v)]
  | (b, w) :: m, a, v =>
    if a < b then (a, v) :: (b, w) :: m
    else if a = b then (a, v) :: m
    else (b, w) :: Memory.write m a v

/-- The canonical form: addresses strictly rising, each one a register address of 8 bits (R30). -/
def Memory.wf : Memory → Bool
  | [] => true
  | (a, _) :: m => a < 256 && m.all (fun c => a < c.1) && Memory.wf m

/-! ### One field each -/

/-- `emit(e)` (R9): the trace only grows (R22). -/
def State.emit (s : State) (e : Event) : State :=
  { s with trace := s.trace ++ [e] }

/-- `synth.regs[addr] <- Some val` (R92). -/
def State.storeReg (s : State) (addr val : Byte) : State :=
  { s with regs := Memory.write s.regs addr.toNat val }

/-- `synth.state <- st` (R101). -/
def State.setSynthState (s : State) (st : SynthState) : State :=
  { s with synthState := st }

/-- `synth.xtal <- Some c` (R100). -/
def State.setXtal (s : State) (c : CrystalLoad) : State :=
  { s with xtal := some c }

/-- `synth.pll[p]` (R23). -/
def State.pll (s : State) : PllId → Option PllRecord
  | .a => s.pllA
  | .b => s.pllB

/-- `synth.ms[o]` (R23). -/
def State.ms (s : State) : OutputId → Option MsRecord
  | .out0 => s.ms0
  | .out1 => s.ms1
  | .out2 => s.ms2

/-- `synth.pll[p] <- Some r` (R102). -/
def State.setPll (s : State) (p : PllId) (r : PllRecord) : State :=
  { s with pllA := if p = .a then some r else s.pllA, pllB := if p = .b then some r else s.pllB }

/-- `synth.ms[o] <- Some r` (R104). -/
def State.setMs (s : State) (o : OutputId) (r : MsRecord) : State :=
  { s with
    ms0 := if o = .out0 then some r else s.ms0
    ms1 := if o = .out1 then some r else s.ms1
    ms2 := if o = .out2 then some r else s.ms2 }

/-- Every PLL and multisynth record becomes `None` (R100). -/
def State.clearRecords (s : State) : State :=
  { s with pllA := none, pllB := none, ms0 := none, ms1 := none, ms2 := none }

/-- `pc <- target` (R9, R20). -/
def State.setPc (s : State) (target : Pc) : State :=
  { s with pc := target }

/-- `mc.committed <- Some level` (R122, R125). -/
def State.commit (s : State) (level : Bool) : State :=
  { s with committed := some level }

/-- What the operation returns to whoever issued it (R57; log 4). -/
def State.returns (s : State) (r : OpResult) : State :=
  { s with result := r }

/-- The command words still waiting on the test port. -/
def State.setPort (s : State) (p : List CmdWord) : State :=
  { s with port := p }

/-- One level of the environment's input is used up. -/
def State.drawPin (s : State) : State :=
  { s with pinInput := s.pinInput.tail, pinReads := s.pinReads + 1 }

/-! ### The register write -/

/-- WR_REG's effect, `MemWrite(addr, 1, val)` (R92): one `RegWrite` event, and the image records the byte whether or
not the chip took it (R141). -/
def State.writeReg (s : State) (addr val : Byte) : State :=
  (s.emit (.regWrite addr val)).storeReg addr val

/-- Writes bytes one by one to increasing addresses, each taken modulo 256 (R93, R35). -/
def State.writeBytes (s : State) (base : Byte) : List Byte → State
  | [] => s
  | v :: vs => (s.writeReg base v).writeBytes (base + 1) vs

/-- `B[0], ..., B[7]`. -/
def Block.toList (b : Block) : List Byte :=
  [b.b0, b.b1, b.b2, b.b3, b.b4, b.b5, b.b6, b.b7]

/-- The eight single-register writes of WR_DIVBLK (R93). -/
def State.writeBlock (s : State) (base : Byte) (b : Block) : State :=
  s.writeBytes base b.toList

/-! ### The pin and the delay (R9, R43, R123) -/

/-- The level the environment gives at the `k`-th coming pin read: a free boolean (R123), the next unused one of the
environment's input, or the free value of that read when the input is exhausted (log 3). -/
def State.pinLevel (s : State) (k : Nat) : Bool :=
  match s.pinInput[k]? with
  | some l => l
  | none => Config.freeLevel (s.pinReads + k)

/-- `PinRead()` (R9): the state after it; the level read is `pinLevel 0` of the state before. -/
def State.readPin (s : State) : State :=
  s.drawPin.emit (.pinRead (s.pinLevel 0))

/-- `digital_configure(SW_PIN, SW_MODE)` (R22, R122). -/
def State.configurePin (s : State) : State :=
  s.emit (.pinConfig Config.swPin Config.swMode)

/-- `Delay(SETTLE_MS)` (R9, R125): a blocking wait that always returns (R149). -/
def State.delay (s : State) : State :=
  s.emit (.delay Config.settleMs)

/-! ### The test port (R57, R148) -/

/-- The next command word, and the state that has taken it from the port. -/
def fetch (s : State) : Option (CmdWord × State) :=
  match s.port with
  | [] => none
  | w :: rest => some (w, s.setPort rest)

/-! ### The exception of the variant (R142) -/

/-- The cause code of `RangeError` (R142). -/
def rangeErrorCode : Nat := 1

/-- `raise RangeError(info)` (R9, R142): the operation returns nothing, emits no event and changes no state, and its
caller stops at that point for ever, so the machine ends in a fault that holds the state it stands in. There is no
return from it ("no reporting path"). -/
def raise (e : RangeError) (s : State) : Out :=
  .fault (.rangeError e s)

/-! ### Below the `RegWrite` abstraction (R34, R56, R150) -/

/-- The calls of the platform I/O layer (R150). -/
inductive PlatformCall where
  | busStart
  | busWriteAddress (b : Byte)
  | busWriteByte (b : Byte)
  | busStop
  | digitalConfigure (pin mode : Nat)
  | digitalRead (pin : Nat)
  | delayMs (ms : Nat)
deriving DecidableEq, Repr

/-- The chip-address byte `(CHIP_ADDR7 << 1) | RW_WRITE` (R34, R56). -/
def chipAddressByte : Byte :=
  (Config.chipAddr7.setWidth 8 <<< 1) ||| Config.rwWrite.setWidth 8

/-- The platform calls one event stands for, in order, nothing between them (R34, R22). -/
def Event.calls : Event → List PlatformCall
  | .regWrite addr val =>
    [.busStart, .busWriteAddress chipAddressByte, .busWriteByte addr, .busWriteByte val, .busStop]
  | .pinConfig pin mode => [.digitalConfigure pin mode]
  | .pinRead _ => [.digitalRead Config.swPin]
  | .delay ms => [.delayMs ms]

/-- Every platform call the block has made, oldest first. -/
def State.platformCalls (s : State) : List PlatformCall :=
  s.trace.flatMap Event.calls

end Sys2Proof.Machine
end

