-- ==== Sys2Proof/Machine/Operands.lean ====
section
/-!
DEFINITION. How operands become addresses and bytes (spec/30_encoding.md R58, spec/42_synth_model.md R103 and R105),
and the fixed addresses and values of spec/10_state.md R11 and spec/20_memory.md R31.
-/

namespace Sys2Proof.Machine

/-- Register 3, the enable mask (R15). -/
def enableMaskAddr : Byte := 3

/-- Register 177, the PLL-reset trigger (R18). -/
def pllResetAddr : Byte := 177

/-- Register 183, the crystal load (R19). -/
def crystalLoadAddr : Byte := 183

/-- `CTRL_PWRDOWN` (R11). -/
def ctrlPowerDown : Byte := 0x80

/-- `OE_ALL_OFF` (R11). -/
def allOff : Byte := 0xFF

/-- `OE_ALL_ON` (R11). -/
def allOn : Byte := 0x00

/-- `pll_base` (R103). -/
def pllBase : PllId → Byte
  | .a => 26
  | .b => 34

/-- `pll_rst`, formats RST: `RST_A` and `RST_B` of R11, the one bit alone (R54, R103). -/
def pllResetByte : PllId → Byte
  | .a => 0x20
  | .b => 0x80

/-- `ms_base` (R105). -/
def msBase : OutputId → Byte
  | .out0 => 42
  | .out1 => 50
  | .out2 => 58

/-- `ms_ctrl` (R105). -/
def msCtrl : OutputId → Byte
  | .out0 => 16
  | .out1 => 17
  | .out2 => 18

/-- `enabled` as the byte of register 3, format OEM; the polarity is inverted (R53, R106). -/
def enableMask (enabled : Bool) : Byte :=
  if enabled then allOn else allOff

/-- `level` as (`src_pll`, `div`) (R58, R126). -/
def levelTarget (level : Bool) : PllId × U32 :=
  if level = Config.palLevel then (.b, Config.divPal) else (.a, Config.divNtsc)

/-- The register addresses the block's own sequences write, 46 of them (R14, R31). -/
def wiredAddress (a : Nat) : Bool :=
  a == 3 || (16 ≤ a && a ≤ 18) || (26 ≤ a && a ≤ 65) || a == 177 || a == 183

end Sys2Proof.Machine
end

