-- ==== Sys2Proof/Machine/Flags.lean ====
section
/-!
DEFINITION. The predicates of the operands and of the state (spec/10_state.md R12, R27; spec/43_mode_controller.md
R130) and the control byte they make (spec/30_encoding.md R52). The hardware has no stored flags (R12).
-/

namespace Sys2Proof.Machine

/-- `is_int` (R12). -/
def isInt (num : U32) : Bool :=
  num == 0

/-- `is_unit` (R12). -/
def isUnit (denom : U32) : Bool :=
  denom == 1

/-- Format CTRL as SETUP_MS writes it: `0x0F`, bit 5 for PLL B, bit 6 for integer mode (R52, R104). -/
def ctrlByte (src : PllId) (num : U32) : Byte :=
  0x0F ||| (if src = .b then 0x20 else 0) ||| (if isInt num then 0x40 else 0)

/-- The bit number of an output's channel in register 3 (R15). -/
def outputBit : OutputId → Nat
  | .out0 => 0
  | .out1 => 1
  | .out2 => 2

/-- `enabled(o)`: not masked off and not powered down, as far as the block wrote the registers (R27). -/
def State.outputEnabled (s : State) (o : OutputId) : Bool :=
  match Memory.read s.regs enableMaskAddr.toNat, Memory.read s.regs (msCtrl o).toNat with
  | some m, some c => !m.getLsbD (outputBit o) && !c.getLsbD 7
  | _, _ => false

/-- The two video colour systems (spec/00_scope.md section 6). -/
inductive VideoMode where
  | ntsc
  | pal
deriving DecidableEq, Repr

/-- The selected mode, a function of `mc.committed` (R130); nothing is selected before BOOT commits a level. -/
def State.selectedMode (s : State) : Option VideoMode :=
  s.committed.map fun c => if c = Config.palLevel then .pal else .ntsc

end Sys2Proof.Machine
end

