-- ==== Sys2Proof/Machine/DividerEncoder.lean ====
section
/-!
DEFINITION. The Divider Encoder (spec/40_divider_encoder.md): binary32 rounding, the fraction, the packed triple, and
the meanings of ENC_PLL and ENC_MS.
-/

namespace Sys2Proof.Machine

/-! ### Binary32 rounding of a positive rational (R74) -/

/-- A positive rational `num / den`, both parts positive, not reduced. -/
structure Ratio where
  num : Nat
  den : Nat
deriving DecidableEq, Repr

/-- An integer as a rational. -/
def Ratio.ofNat (n : Nat) : Ratio where
  num := n
  den := 1

/-- The exact rational quotient. -/
def Ratio.div (x y : Ratio) : Ratio where
  num := x.num * y.den
  den := x.den * y.num

/-- `x / 2^k` for an integer `k`. -/
def Ratio.scaleDown (x : Ratio) (k : Int) : Ratio where
  num := x.num * 2 ^ (-k).toNat
  den := x.den * 2 ^ k.toNat

/-- `floor(x)`. -/
def Ratio.floor (x : Ratio) : Nat :=
  x.num / x.den

/-- The integer `e` with `2^e <= x < 2^(e+1)` (R74): the difference of the two bit lengths, or one less. -/
def Ratio.exponent (x : Ratio) : Int :=
  let e : Int := (x.num.log2 : Int) - (x.den.log2 : Int)
  if (x.scaleDown e).den ≤ (x.scaleDown e).num then e else e - 1

/-- The nearest integer to `m`, ties to the even one (R74's `m'`). -/
def Ratio.roundHalfEven (m : Ratio) : Nat :=
  let m0 := m.num / m.den
  let r2 := 2 * (m.num % m.den)
  if r2 < m.den then m0
  else if m.den < r2 then m0 + 1
  else if m0 % 2 = 0 then m0
  else m0 + 1

/-- `RN32(x)`: `x` in units of `ulp = 2^(e-23)`, rounded, times `ulp` (R74). -/
def Ratio.rn32 (x : Ratio) : Ratio :=
  let u := x.exponent - 23
  (Ratio.ofNat (x.scaleDown u).roundHalfEven).scaleDown (-u)

/-! ### The fraction (R72) -/

/-- `FRAC_exact` (R73). -/
def fracExact (num denom : Nat) : Nat :=
  128 * num / denom

/-- The binary32 quotient of two positive integers: both rounded to binary32, then the quotient (R74). -/
def quotient32 (num denom : Nat) : Ratio :=
  ((Ratio.ofNat num).rn32.div (Ratio.ofNat denom).rn32).rn32

/-- `FRAC_b32` (R74). -/
def fracB32 (num denom : Nat) : Nat :=
  (Ratio.scaleDown (quotient32 num denom) (-7)).floor

/-- `FRAC` by `FRAC_MODE`, for `num >= 1` and `denom >= 1` (R72). Where `denom` is 0 it has no meaning: every
operation that divides is refused there first (`fracUndefined`). -/
def frac (mode : Config.FracMode) (num denom : Nat) : Nat :=
  match mode with
  | .binary32 => fracB32 num denom
  | .exact => fracExact num denom

/-- R82's undefined case: a fractional path with `denom = 0`. Under `RANGE_CHECK = on` the same operands raise
`RangeError` instead (R142). -/
def fracUndefined (v : Config.Variant) (num denom : U32) : Bool :=
  match v.rangeCheck with
  | .off => !isInt num && denom == 0
  | .on => false

/-! ### The triple (R70, R71) -/

/-- `P1z`, `P2z`, `P3z`: the values of the formulas in the unbounded integers (R75, R83). -/
structure TripleZ where
  p1 : Int
  p2 : Int
  p3 : Int
deriving DecidableEq, Repr

/-- `trunc_32` of each value, once (R75). -/
def TripleZ.trunc (z : TripleZ) : Triple where
  p1 := BitVec.ofInt 32 z.p1
  p2 := BitVec.ofInt 32 z.p2
  p3 := BitVec.ofInt 32 z.p3

/-- The integer path of both encoders (R70, R71). -/
def integerPath (a denom : Nat) : TripleZ where
  p1 := 128 * a - 512
  p2 := 0
  p3 := denom

/-- The simplified path of ENC_MS, kept verbatim (R71, R79). -/
def simplifiedPath (a num : Nat) : TripleZ where
  p1 := 128 * a + 128 * num - 512
  p2 := 128 * num - 128
  p3 := 1

/-- The fractional path of ENC_PLL and the general path of ENC_MS, for a given `frac` (R70, R71). -/
def fractionalPath (a num denom f : Nat) : TripleZ where
  p1 := 128 * a + f - 512
  p2 := 128 * num - denom * f
  p3 := denom

/-- The formulas of ENC_PLL (R70). -/
def encodePllZ (mode : Config.FracMode) (mult : Byte) (num denom : U32) : TripleZ :=
  if isInt num then integerPath mult.toNat denom.toNat
  else fractionalPath mult.toNat num.toNat denom.toNat (frac mode num.toNat denom.toNat)

/-- The formulas of ENC_MS, the branches tested in this order (R71). -/
def encodeMsZ (mode : Config.FracMode) (div num denom : U32) : TripleZ :=
  if isInt num then integerPath div.toNat denom.toNat
  else if isUnit denom then simplifiedPath div.toNat num.toNat
  else fractionalPath div.toNat num.toNat denom.toNat (frac mode num.toNat denom.toNat)

/-- `in_range` of the values before `trunc_32` (R83). -/
def TripleZ.inRange (z : TripleZ) : Bool :=
  0 ≤ z.p1 && z.p1 < 2 ^ 18 && 0 ≤ z.p2 && z.p2 < 2 ^ 20 && 1 ≤ z.p3 && z.p3 < 2 ^ 20

/-- The triple, or under `RANGE_CHECK = on` the `RangeError` of R142; the check is made after the triple is computed
(R145). -/
def checkRange (v : Config.Variant) (e : RangeError) (z : TripleZ) : Except RangeError Triple :=
  match v.rangeCheck with
  | .off => .ok z.trunc
  | .on => if z.inRange && !(e.denom == 0) then .ok z.trunc else .error e

/-- `encode_pll(mult, num, denom)` (R70). -/
def encodePll (v : Config.Variant) (mult : Byte) (num denom : U32) : Except RangeError Triple :=
  checkRange v { op := .encPll, a := mult.setWidth 32, num := num, denom := denom }
    (encodePllZ v.fracMode mult num denom)

/-- `encode_multisynth(div, num, denom)` (R71). -/
def encodeMs (v : Config.Variant) (div num denom : U32) : Except RangeError Triple :=
  checkRange v { op := .encMs, a := div, num := num, denom := denom } (encodeMsZ v.fracMode div num denom)

/-- Goes on with the encoder's triple, or raises its `RangeError` in the state the operation was called in, before any
write (R142). -/
def withTriple (r : Except RangeError Triple) (s : State) (k : Triple → Out) : Out :=
  match r with
  | .ok t => k t
  | .error e => raise e s

/-! ### The meanings -/

/-- ENC_PLL under a variant: returns the triple, changes nothing else (R70, R10). -/
def encPllOp (v : Config.Variant) (mult : Byte) (num denom : U32) (s : State) : Out :=
  if fracUndefined v num denom then .refused .fractionUndefined
  else withTriple (encodePll v mult num denom) s fun t => .next (s.returns (.triple t))

/-- ENC_MS under a variant: returns the triple, changes nothing else (R71, R10). -/
def encMsOp (v : Config.Variant) (div num denom : U32) (s : State) : Out :=
  if fracUndefined v num denom then .refused .fractionUndefined
  else withTriple (encodeMs v div num denom) s fun t => .next (s.returns (.triple t))

/-- ENC_PLL (R70). -/
def execEncPll (mult : Byte) (num denom : U32) (s : State) : Out :=
  encPllOp Config.specified mult num denom s

/-- ENC_MS (R71). -/
def execEncMs (div num denom : U32) (s : State) : Out :=
  encMsOp Config.specified div num denom s

end Sys2Proof.Machine
end

