-- ==== Sys2Proof/Machine/RegisterWriter.lean ====
section
/-!
DEFINITION. The Register Writer (spec/41_register_writer.md): the serialisation of a triple (R91, layout R51), its
inverse as a specification device (R94), and the meanings of PACK, WR_REG and WR_DIVBLK.
-/

namespace Sys2Proof.Machine

/-- `pack(P1, P2, P3)`, byte by byte (R91, R51). Bits above 17, 19 and 19 are dropped; bits 7:2 of `B[2]` are 0. -/
def pack (t : Triple) : Block where
  b0 := t.p3.extractLsb' 8 8
  b1 := t.p3.extractLsb' 0 8
  b2 := (t.p1.extractLsb' 16 2).setWidth 8
  b3 := t.p1.extractLsb' 8 8
  b4 := t.p1.extractLsb' 0 8
  b5 := ((t.p3.extractLsb' 16 4).setWidth 8 <<< 4) ||| (t.p2.extractLsb' 16 4).setWidth 8
  b6 := t.p2.extractLsb' 8 8
  b7 := t.p2.extractLsb' 0 8

/-- `UNPACK(B)` of R94, which no operation performs. -/
def unpack (b : Block) : Triple where
  p1 := ((b.b2.extractLsb' 0 2).setWidth 32 <<< 16) ||| (b.b3.setWidth 32 <<< 8) ||| b.b4.setWidth 32
  p2 := ((b.b5.extractLsb' 0 4).setWidth 32 <<< 16) ||| (b.b6.setWidth 32 <<< 8) ||| b.b7.setWidth 32
  p3 := ((b.b5.extractLsb' 4 4).setWidth 32 <<< 16) ||| (b.b0.setWidth 32 <<< 8) ||| b.b1.setWidth 32

/-- PACK: returns the eight bytes, changes nothing else (R91). -/
def execPack (p1 p2 p3 : U32) (s : State) : Out :=
  .next (s.returns (.block (pack { p1 := p1, p2 := p2, p3 := p3 })))

/-- WR_REG (R92). -/
def execWrReg (addr val : Byte) (s : State) : Out :=
  .next ((s.writeReg addr val).returns .nothing)

/-- WR_DIVBLK: the pack bytes, one register write each (R93). -/
def execWrDivblk (base : Byte) (p1 p2 p3 : U32) (s : State) : Out :=
  .next ((s.writeBlock base (pack { p1 := p1, p2 := p2, p3 := p3 })).returns .nothing)

end Sys2Proof.Machine
end

