-- ==== Sys2Proof/Machine/SynthModel.lean ====
section
/-!
DEFINITION. The Synthesizer Model (spec/42_synth_model.md): the sequences the Mode Controller uses too, and the
meanings of INIT, SETUP_PLL, SETUP_MS and ENABLE_OUTPUTS. No operation tests a precondition (R108).
-/

namespace Sys2Proof.Machine

/-- The five writes of INIT and the record it leaves (R100; order by `90_conflicts.md` C1). -/
def initSeq (load : CrystalLoad) (s : State) : State :=
  let written := ((((s.writeReg enableMaskAddr allOff).writeReg (msCtrl .out0) ctrlPowerDown).writeReg
    (msCtrl .out1) ctrlPowerDown).writeReg (msCtrl .out2) ctrlPowerDown).writeReg crystalLoadAddr (Config.xtalCode load)
  ((written.setSynthState .disabled).setXtal load).clearRecords

/-- `if synth.pll[A] != None and synth.pll[B] != None then synth.state <- Configured` (R102, R101). -/
def State.configureIfBoth (s : State) : State :=
  if s.pllA.isSome && s.pllB.isSome then s.setSynthState .configured else s

/-- SETUP_PLL after the encoder: the divider block, the reset trigger last, the record (R102). -/
def setupPllWith (p : PllId) (r : PllRecord) (t : Triple) (s : State) : State :=
  ((((s.writeBlock (pllBase p) (pack t)).writeReg pllResetAddr (pllResetByte p)).setPll p r)).configureIfBoth

/-- The sequence of SETUP_PLL (R102). -/
def setupPllSeq (v : Config.Variant) (p : PllId) (mult : Byte) (num denom : U32) (s : State) : Out :=
  withTriple (encodePll v mult num denom) s fun t =>
    .next (setupPllWith p { mult := mult, num := num, denom := denom } t s)

/-- SETUP_MS after the encoder: the divider block, the control register last, the record (R104). -/
def setupMsWith (o : OutputId) (r : MsRecord) (t : Triple) (s : State) : State :=
  ((s.writeBlock (msBase o) (pack t)).writeReg (msCtrl o) (ctrlByte r.src r.num)).setMs o r

/-- The sequence of SETUP_MS (R104). -/
def setupMsSeq (v : Config.Variant) (o : OutputId) (src : PllId) (div num denom : U32) (s : State) : Out :=
  withTriple (encodeMs v div num denom) s fun t =>
    .next (setupMsWith o { div := div, num := num, denom := denom, src := src, intMode := isInt num } t s)

/-- The one write of ENABLE_OUTPUTS (R106). -/
def enableSeq (enabled : Bool) (s : State) : State :=
  s.writeReg enableMaskAddr (enableMask enabled)

/-- An operation that returns nothing has come to its end. -/
def finish (s : State) : Out :=
  .next (s.returns .nothing)

/-- SETUP_PLL under a variant (R102; refused where R82 gives the encoder no meaning). -/
def setupPllOp (v : Config.Variant) (p : PllId) (mult : Byte) (num denom : U32) (s : State) : Out :=
  if fracUndefined v num denom then .refused .fractionUndefined
  else andThen (setupPllSeq v p mult num denom s) finish

/-- SETUP_MS under a variant (R104; refused where R82 gives the encoder no meaning). -/
def setupMsOp (v : Config.Variant) (o : OutputId) (src : PllId) (div num denom : U32) (s : State) : Out :=
  if fracUndefined v num denom then .refused .fractionUndefined
  else andThen (setupMsSeq v o src div num denom s) finish

/-- INIT (R100). -/
def execInit (load : CrystalLoad) (s : State) : Out :=
  finish (initSeq load s)

/-- SETUP_PLL (R102). -/
def execSetupPll (p : PllId) (mult : Byte) (num denom : U32) (s : State) : Out :=
  setupPllOp Config.specified p mult num denom s

/-- SETUP_MS (R104). -/
def execSetupMs (o : OutputId) (src : PllId) (div num denom : U32) (s : State) : Out :=
  setupMsOp Config.specified o src div num denom s

/-- ENABLE_OUTPUTS (R106). -/
def execEnableOutputs (enabled : Bool) (s : State) : Out :=
  finish (enableSeq enabled s)

end Sys2Proof.Machine
end

