-- ==== Sys2Proof/Machine/ModeController.lean ====
section
/-!
DEFINITION. The Mode Controller (spec/43_mode_controller.md): its sequences, the meanings of CHANGE_FREQ, BOOT and
POLL, and the step it takes by itself (R120, R127).
-/

namespace Sys2Proof.Machine

/-- The twenty writes of CHANGE_FREQ (R126). It reads and writes neither `mc.committed` nor `mc.pc`. -/
def changeFreqSeq (v : Config.Variant) (level : Bool) (s : State) : Out :=
  andThen (setupMsSeq v .out0 (levelTarget level).1 (levelTarget level).2 0 1 (enableSeq false s)) fun s1 =>
    andThen (setupMsSeq v .out1 (levelTarget level).1 (levelTarget level).2 0 1 s1) fun s2 =>
      .next (enableSeq true s2)

/-- A level is accepted: `mc.committed <- Some level`, then CHANGE_FREQ (R122, R125). This is the nearest thing to a
trap entry (R146): nothing is saved, and control goes to the fixed sequence. -/
def commitSeq (v : Config.Variant) (level : Bool) (s : State) : Out :=
  changeFreqSeq v level (s.commit level)

/-- The end of an accepted level, the nearest thing to a trap return (R147): `pc <- IDLE`, nothing to restore. -/
def returnToIdle (s : State) : Out :=
  .next (s.setPc .idle)

/-- The sequence of BOOT (R122). The PAL ratio's denominator is at least 1 (D19), so R82's case does not arise. -/
def bootSeq (v : Config.Variant) (s : State) : Out :=
  andThen (setupPllSeq v .a Config.pllaRatio.mult Config.pllaRatio.num Config.pllaRatio.denom
      (initSeq Config.bootXtal s.configurePin)) fun s1 =>
    andThen (setupPllSeq v .b Config.pllbRatio.mult Config.pllbRatio.num Config.pllbRatio.denom s1) fun s2 =>
      andThen (commitSeq v (s2.pinLevel 0) s2.readPin) returnToIdle

/-- POLL, first half, `c` the committed level (R124). -/
def sampleSeq (c : Bool) (s : State) : State :=
  s.readPin.setPc (if s.pinLevel 0 != c then .settle else .idle)

/-- POLL, second half, `c` the committed level (R125). -/
def confirmSeq (v : Config.Variant) (c : Bool) (s : State) : Out :=
  andThen (if s.delay.pinLevel 0 != c then commitSeq v (s.delay.pinLevel 0) s.delay.readPin
    else .next s.delay.readPin) returnToIdle

/-- CHANGE_FREQ issued from outside the controller, under a variant (R126; refused in `SETTLE`, U6, log 10). -/
def changeFreqOp (v : Config.Variant) (level : Bool) (s : State) : Out :=
  match s.pc with
  | .settle => .refused .changeFreqWhileSettling
  | _ => andThen (changeFreqSeq v level s) finish

/-- BOOT under a variant (R122; refused outside `RESET`, U6). -/
def bootOp (v : Config.Variant) (s : State) : Out :=
  match s.pc with
  | .reset => andThen (bootSeq v s) finish
  | _ => .refused .bootOutsideReset

/-- One transition of the poll loop, as the rows of R127 give them: from `IDLE` the sample, from `SETTLE` the
confirmation. -/
def pollHalf (v : Config.Variant) (s : State) : Out :=
  match s.pc, s.committed with
  | .reset, _ => .refused .pollBeforeBoot
  | _, none => .refused .pollWithoutCommitted
  | .idle, some c => finish (sampleSeq c s)
  | .settle, some c => andThen (confirmSeq v c s) finish

/-- POLL under a variant: the command runs both halves, the second when `mc.pc` became `SETTLE` (R124, R127;
log 11). Issued in `SETTLE` it runs the second half. -/
def pollOp (v : Config.Variant) (s : State) : Out :=
  match s.pc with
  | .idle => andThen (pollHalf v s) fun s1 => if s1.pc = .settle then pollHalf v s1 else .next s1
  | _ => pollHalf v s

/-- CHANGE_FREQ (R126). -/
def execChangeFreq (level : Bool) (s : State) : Out :=
  changeFreqOp Config.specified level s

/-- BOOT (R122). -/
def execBoot (s : State) : Out :=
  bootOp Config.specified s

/-- POLL (R124 and R125). -/
def execPoll (s : State) : Out :=
  pollOp Config.specified s

/-- The step the Mode Controller takes when no command waits on the test port: BOOT once, then the halves of POLL for
ever (R120, R127; log 1). -/
def wiredStep (s : State) : Out :=
  match s.pc with
  | .reset => execBoot s
  | _ => pollHalf Config.specified s

end Sys2Proof.Machine
end

