-- ==== Sys2Proof/Machine/Dispatch.lean ====
section
/-!
DEFINITION. The meaning of an operation: one arm per constructor of `Instr` (spec/30_encoding.md R59).
-/

namespace Sys2Proof.Machine

def exec (i : Instr) (s : State) : Host.Outcome State Fault Refusal :=
  match i with
  | .encPll mult num denom => Sys2Proof.Machine.execEncPll mult num denom s
  | .encMs div num denom => Sys2Proof.Machine.execEncMs div num denom s
  | .pack p1 p2 p3 => Sys2Proof.Machine.execPack p1 p2 p3 s
  | .wrReg addr val => Sys2Proof.Machine.execWrReg addr val s
  | .wrDivblk base p1 p2 p3 => Sys2Proof.Machine.execWrDivblk base p1 p2 p3 s
  | .init load => Sys2Proof.Machine.execInit load s
  | .setupPll p mult num denom => Sys2Proof.Machine.execSetupPll p mult num denom s
  | .setupMs o src div num denom => Sys2Proof.Machine.execSetupMs o src div num denom s
  | .enableOutputs enabled => Sys2Proof.Machine.execEnableOutputs enabled s
  | .changeFreq level => Sys2Proof.Machine.execChangeFreq level s
  | .boot => Sys2Proof.Machine.execBoot s
  | .poll => Sys2Proof.Machine.execPoll s

end Sys2Proof.Machine
end

