-- ==== Sys2Proof/Machine/Step.lean ====
section
/-!
DEFINITION. One step of the machine: a command word waiting on the test port is decoded and run (spec/30_encoding.md
R57); with none waiting, the Mode Controller takes its own step (spec/43_mode_controller.md R120). Logs 1 and 2.
-/

namespace Sys2Proof.Machine

/-- One step. -/
def step (s : State) : Host.Outcome State Fault Refusal :=
  match fetch s with
  | some (w, s') =>
    match decode w with
    | .ok i => exec i s'
    | .error why => .refused (.reservedCommand why)
  | none => wiredStep s

/-- `s` with a command word put at the head of the test port, where `step` takes its next instruction. -/
def State.withFetchWord (s : State) (nbits w : Nat) : State :=
  { s with port := BitVec.ofNat 128 (w % 2 ^ nbits) :: s.port }

end Sys2Proof.Machine
end

