-- ==== Sys2Proof/Safety.lean ====
section
/-!
DEFINITION. What counts as a good state and a good run of FAMI-PLLENC: the vocabulary claims use. The invariants of
spec/10_state.md R14, R20 and R24, the ordering duties of spec/70_reset_and_hazards.md R162 to R169 as predicates on
what was written, and the wired system of spec/43_mode_controller.md R120.
-/

namespace Sys2Proof.Safety

open Sys2Proof.Machine

/-! ### Events and the image -/

/-- The register writes among events, oldest first (R22: the "fixed register sequence"). -/
def writesOf : List Event → List (Byte × Byte)
  | [] => []
  | .regWrite a v :: es => (a, v) :: writesOf es
  | _ :: es => writesOf es

/-- The last byte the events write to an address, if they write there at all. -/
def lastWrite : List Event → Nat → Option Byte
  | [], _ => none
  | .regWrite b v :: es, a => (lastWrite es a).or (if b.toNat = a then some v else none)
  | _ :: es, a => lastWrite es a

/-- `m'` is `m` with the events' writes recorded: an address they write reads as the last byte written there, and
every other address reads as before. -/
def Recorded (m m' : Memory) (es : List Event) : Prop :=
  ∀ a : Nat, Memory.read m' a = (lastWrite es a).or (Memory.read m a)

/-- The eight writes of a divider block at `base`, in increasing address order (R93). -/
def blockEvents (base : Byte) (b : Block) : List Event :=
  [.regWrite base b.b0, .regWrite (base + 1) b.b1, .regWrite (base + 2) b.b2, .regWrite (base + 3) b.b3,
    .regWrite (base + 4) b.b4, .regWrite (base + 5) b.b5, .regWrite (base + 6) b.b6, .regWrite (base + 7) b.b7]

/-- The five writes of INIT as R100's example prints them. -/
def initEvents (load : CrystalLoad) : List Event :=
  [.regWrite 3 0xFF, .regWrite 16 0x80, .regWrite 17 0x80, .regWrite 18 0x80, .regWrite 183 (Config.xtalCode load)]

/-- The nine writes that set up PLL A with the NTSC ratio, as R102's example prints them. -/
def ntscPllEvents : List Event :=
  [.regWrite 26 0xD0, .regWrite 27 0x90, .regWrite 28 0x00, .regWrite 29 0x0A, .regWrite 30 0xE2, .regWrite 31 0x33,
    .regWrite 32 0x77, .regWrite 33 0x60, .regWrite 177 0x20]

/-- The nine writes that set up PLL B with the PAL ratio (R122). -/
def palPllEvents : List Event :=
  blockEvents 34 (pack (encodePllZ .binary32 Config.pllbRatio.mult Config.pllbRatio.num Config.pllbRatio.denom).trunc) ++
    [.regWrite 177 0x80]

/-- The twenty writes of a frequency change, `d` the divider byte and `c` the control byte (R126's examples). -/
def retuneEvents (d c : Byte) : List Event :=
  [.regWrite 3 0xFF,
    .regWrite 42 0x00, .regWrite 43 0x01, .regWrite 44 0x00, .regWrite 45 d, .regWrite 46 0x00, .regWrite 47 0x00,
    .regWrite 48 0x00, .regWrite 49 0x00, .regWrite 16 c,
    .regWrite 50 0x00, .regWrite 51 0x01, .regWrite 52 0x00, .regWrite 53 d, .regWrite 54 0x00, .regWrite 55 0x00,
    .regWrite 56 0x00, .regWrite 57 0x00, .regWrite 17 c,
    .regWrite 3 0x00]

/-- What `change_freq(level)` writes: the PAL sequence when the level indicates PAL, else the NTSC one (R126). -/
def changeFreqEvents (level : Bool) : List Event :=
  if level = Config.palLevel then retuneEvents 0x0B 0x6F else retuneEvents 0x0D 0x4F

/-- The record `change_freq(level)` leaves in multisynths 0 and 1 (R126). -/
def changeFreqRecord (level : Bool) : MsRecord :=
  if level = Config.palLevel then { div := 26, num := 0, denom := 1, src := .b, intMode := true }
  else { div := 30, num := 0, denom := 1, src := .a, intMode := true }

/-- The first 24 events of BOOT, up to the pin read (R122, R127). -/
def bootPrefix : List Event :=
  [.pinConfig Config.swPin Config.swMode] ++ initEvents Config.bootXtal ++ ntscPllEvents ++ palPllEvents

/-! ### Invariants -/

/-- R14: the image holds, for each address, the last byte the block wrote there. -/
def ImageMirrorsTrace (s : State) : Prop :=
  ∀ a : Nat, Memory.read s.regs a = lastWrite s.trace a

/-- R20, R21, R124: no level is committed exactly as long as BOOT has not run. -/
def ControllerConsistent (s : State) : Prop :=
  s.pc = .reset ↔ s.committed = none

/-- The eight image bytes from `base` on are those of the block. -/
def BlockHeld (m : Memory) (base : Byte) (b : Block) : Prop :=
  ∀ i : Nat, i < 8 → Memory.read m (base.toNat + i) = b.toList[i]?

/-- The links of R24 between the abstract configuration and the image. -/
structure Linked (s : State) : Prop where
  pllHeld : ∀ p r, s.pll p = some r →
    BlockHeld s.regs (pllBase p) (pack (encodePllZ .binary32 r.mult r.num r.denom).trunc) ∧
      (Memory.read s.regs 177).isSome
  msHeld : ∀ o r, s.ms o = some r →
    BlockHeld s.regs (msBase o) (pack (encodeMsZ .binary32 r.div r.num r.denom).trunc) ∧
      r.intMode = (r.num == 0) ∧
      Memory.read s.regs (msCtrl o).toNat =
        some (0x0F ||| (if r.src = .b then 0x20 else 0) ||| (if r.intMode then 0x40 else 0))
  configured : s.synthState = .configured ↔ s.pllA.isSome ∧ s.pllB.isSome
  xtalHeld : ∀ c, s.xtal = some c → Memory.read s.regs 183 = some (Config.xtalCode c)
  maskHeld : ∀ m, Memory.read s.regs 3 = some m → m = 0x00 ∨ m = 0xFF

/-! ### The duties of the sequencer (R162 to R169), on the register writes of a trace -/

/-- R162: INIT's five writes come first. -/
def InitFirst (ws : List (Byte × Byte)) : Bool :=
  ws.isEmpty || ws.take 5 == [(3, 0xFF), (16, 0x80), (17, 0x80), (18, 0x80), (183, Config.xtalCode Config.bootXtal)]

/-- R164: a PLL's divider block ends with its reset write at once, and no reset is written at any other place.
`prev` is the address written just before. -/
def ResetAfterBlock (prev : Byte) : List (Byte × Byte) → Bool
  | [] => prev != 33 && prev != 41
  | (a, v) :: ws =>
    (prev == 33) == (a == 177 && v == 0x20) && (prev == 41) == (a == 177 && v == 0x80) && ResetAfterBlock a ws

/-- A register of a multisynth: an output-control register or a byte of its divider block (R31). -/
def multisynthAddr (a : Byte) : Bool :=
  (16 ≤ a.toNat && a.toNat ≤ 18) || (42 ≤ a.toNat && a.toNat ≤ 65)

/-- R163: every write to a multisynth's registers stands after a `3:FF` with no other write to register 3 between, and
the writes end with register 3 at `00` again. `mask` is the byte last written to register 3. -/
def OutputsOffAround (mask : Option Byte) : List (Byte × Byte) → Bool
  | [] => mask == none || mask == some 0x00
  | (a, v) :: ws =>
    if a = 3 then OutputsOffAround (some v) ws
    else (!multisynthAddr a || mask == some 0xFF) && OutputsOffAround mask ws

/-- R165: no output is enabled (`3:00`) before both PLLs were reset. -/
def PllsBeforeOutputs (a b : Bool) : List (Byte × Byte) → Bool
  | [] => true
  | (r, v) :: ws =>
    (!(r == 3 && v == 0x00) || (a && b)) &&
      PllsBeforeOutputs (a || (r == 177 && v == 0x20)) (b || (r == 177 && v == 0x80)) ws

/-- R166: the crystal load is written at most once, and each PLL is reset at most once. -/
def OnceEach (ws : List (Byte × Byte)) : Bool :=
  ws.countP (fun w => w.1 == 183) ≤ 1 && ws.countP (fun w => w.1 == 177 && w.2 == 0x20) ≤ 1 &&
    ws.countP (fun w => w.1 == 177 && w.2 == 0x80) ≤ 1

/-- R169: an output's divider block ends with its control register at once. `prev` is the address written just
before. -/
def ControlAfterBlock (prev : Byte) : List (Byte × Byte) → Bool
  | [] => prev != 49 && prev != 57 && prev != 65
  | (a, _) :: ws =>
    (prev != 49 || a == 16) && (prev != 57 || a == 17) && (prev != 65 || a == 18) && ControlAfterBlock a ws

/-- R14, R31: only the 46 addresses are written. -/
def OnlyWired (ws : List (Byte × Byte)) : Bool :=
  ws.all fun w => wiredAddress w.1.toNat

/-- Every ordering duty on register writes at once (R162 to R166, R169), and the 46 addresses. R161, which is about
other events too, is `BootFirst`, and the operand duty R168 is `OperandsInRange`. -/
def MeetsOrderingDuties (ws : List (Byte × Byte)) : Bool :=
  InitFirst ws && ResetAfterBlock 0 ws && OutputsOffAround none ws && PllsBeforeOutputs false false ws &&
    OnceEach ws && ControlAfterBlock 0 ws && OnlyWired ws

/-- R161: what the block did begins with the whole of BOOT in its order: the pin configured, INIT, PLL A, PLL B, the
switch read, the initial CHANGE_FREQ with the level read. -/
def BootFirst (es : List Event) : Prop :=
  ∃ (level : Bool) (later : List Event), es = bootPrefix ++ [.pinRead level] ++ changeFreqEvents level ++ later

/-- R168: the operand duties of a caller by its precise predicate, `denom >= 1` and every packed word within its field
(so `P1 >= 0`, which is `mult >= 4` or `div >= 4` where `num` is 0). -/
def operandDuty (z : TripleZ) (denom : U32) : Bool :=
  !(denom == 0) && z.inRange

/-- `PLLB_RATIO`'s OPEN value meets the operand duty (R171: "for `PLLB_RATIO` if its OPEN value is"). -/
def palRatioInRange (mode : Config.FracMode) : Bool :=
  operandDuty (encodePllZ mode Config.pllbRatio.mult Config.pllbRatio.num Config.pllbRatio.denom) Config.pllbRatio.denom

/-- R168, R171: every ratio the block was set up with meets the operand duty; that of PLL B if `PLLB_RATIO` does. -/
def OperandsInRange (s : State) : Prop :=
  (∀ r, s.pllA = some r → operandDuty (encodePllZ .binary32 r.mult r.num r.denom) r.denom = true) ∧
  (palRatioInRange .binary32 = true →
    ∀ r, s.pllB = some r → operandDuty (encodePllZ .binary32 r.mult r.num r.denom) r.denom = true) ∧
  (∀ o r, s.ms o = some r → operandDuty (encodeMsZ .binary32 r.div r.num r.denom) r.denom = true)

/-! ### The wired system (R120) -/

/-- The state after reset with an environment that gives these levels to the first pin reads. -/
def resetWith (pins : List Bool) : State :=
  { State.reset with pinInput := pins }

/-- `n` steps of the wired system, `BOOT; POLL; POLL; ...`, POLL in its halves (R120, R127). -/
def wiredRun (pins : List Bool) (n : Nat) : Out :=
  Sys2Proof.core.run n (resetWith pins)

/-- The control byte CHANGE_FREQ gives to outputs 0 and 1 (R126's examples). -/
def changeFreqCtrl (level : Bool) : Byte :=
  if level = Config.palLevel then 0x6F else 0x4F

/-- The wired system after BOOT: the configuration BOOT gave it (R101, R109), the two multisynths of the selected mode
(R130), the enable mask open and output 2 powered down in the image (R27, R153), and every duty met by what was done so
far (R171), its last write the `3:00` of a frequency change. -/
structure WiredRunning (s : State) : Prop where
  booted : s.pc ≠ .reset
  configured : s.synthState = .configured
  xtal : s.xtal = some Config.bootXtal
  pllA : s.pllA = some { mult := 25, num := 193181, denom := 250000 }
  pllB : s.pllB = some { mult := Config.pllbRatio.mult, num := Config.pllbRatio.num, denom := Config.pllbRatio.denom }
  ms2 : s.ms2 = none
  selected : ∃ c, s.committed = some c ∧ s.ms0 = some (changeFreqRecord c) ∧ s.ms1 = some (changeFreqRecord c) ∧
    Memory.read s.regs 16 = some (changeFreqCtrl c) ∧ Memory.read s.regs 17 = some (changeFreqCtrl c)
  maskOpen : Memory.read s.regs 3 = some 0x00
  output2Off : Memory.read s.regs 18 = some 0x80
  bootFirst : BootFirst s.trace
  duties : MeetsOrderingDuties (writesOf s.trace) = true
  maskLast : (writesOf s.trace).getLast? = some (3, 0x00)

/-- The invariant of the wired system: no command waits, and either BOOT is still to come and nothing was done, or the
system is running (R120). -/
def WiredInv (s : State) : Prop :=
  s.port = [] ∧ ((s.pc = .reset ∧ s.trace = []) ∨ WiredRunning s)

end Sys2Proof.Safety
end

