-- ==== Sys2Proof/Certificates/Slice0/Obligations.lean ====
section
/-!
DEFINITION. The statements for the provers, from the numbered rules of spec/. A statement about a next state gives the
whole of it: every field that is not named keeps its value, and `Recorded` says of every address whether it was written
and what it then reads as. The fields `port`, `result`, `pinInput` and `pinReads` are the model's own (logs 2, 3 and 4):
a clause about one of them is the model's choice, and no rule of the spec is cited for it.
-/

open Sys2Proof Sys2Proof.Machine Sys2Proof.Safety

/-! ### Command words (spec/30_encoding.md) -/

/-- R57, R59: decode undoes encode, for every operation and every operand. -/
def Obligations.DecodeOfEncodeIsTheInstruction : Prop :=
  ∀ i : Instr, decode (encode i) = .ok i

/-- R57, R59, R60: a word stands for an operation exactly when it agrees with that operation's word on the selecting
bits, the must-be-zero bits and every operand bit the operation reads; all other bits are ignored. -/
def Obligations.DecodeIsEncodeOnTheUsedBits : Prop :=
  ∀ (w : CmdWord) (i : Instr), decode w = .ok i ↔ w &&& usedMask i = encode i

/-- spec/opcode_table.json: every operation's word matches its row's `match` under the table's mask. -/
def Obligations.EncodingsMatchTheOpcodeTable : Prop :=
  ∀ i : Instr, encode i &&& 0xFFFF000000000000000000000000008F =
    match i with
    | .encPll .. => 0
    | .encMs .. => 1
    | .pack .. => 2
    | .wrReg .. => 3
    | .wrDivblk .. => 4
    | .init .. => 5
    | .setupPll .. => 6
    | .setupMs .. => 7
    | .enableOutputs .. => 8
    | .changeFreq .. => 9
    | .boot => 10
    | .poll => 11

/-- R60: which words are rejected. The names they are rejected under, and that the must-be-zero bits are named before
any other defect, are the model's choice (log 15): the spec orders no defects. -/
def Obligations.ReservedWordsAreRejectedByName : Prop :=
  ∀ w : CmdWord,
    (decode w = .error .reservedBits ↔ ¬ (w.extractLsb' 7 1 = 0 ∧ w.extractLsb' 112 16 = 0)) ∧
    (decode w = .error .reservedOp ↔
      (w.extractLsb' 7 1 = 0 ∧ w.extractLsb' 112 16 = 0) ∧ 12 ≤ (w.extractLsb' 0 4).toNat) ∧
    (decode w = .error .reservedCrystalLoad ↔
      (w.extractLsb' 7 1 = 0 ∧ w.extractLsb' 112 16 = 0) ∧ w.extractLsb' 0 4 = 5 ∧ w.extractLsb' 4 2 = 3) ∧
    (decode w = .error .reservedPllId ↔
      (w.extractLsb' 7 1 = 0 ∧ w.extractLsb' 112 16 = 0) ∧ w.extractLsb' 0 4 = 6 ∧ 2 ≤ (w.extractLsb' 4 2).toNat) ∧
    (decode w = .error .reservedOutputId ↔
      (w.extractLsb' 7 1 = 0 ∧ w.extractLsb' 112 16 = 0) ∧ w.extractLsb' 0 4 = 7 ∧ w.extractLsb' 4 2 = 3)

/-- R57, R59: words the spec prints (95_test_vectors.md PROG-3 and PROG-5) decode to their operations. -/
def Obligations.WordsOfTheSpecDecode : Prop :=
  decode 0x00000003D0900002F29D000000001900 = .ok (.encPll 25 193181 250000) ∧
  decode 0x00000000000000000000000000FF0303 = .ok (.wrReg 3 0xFF) ∧
  decode 0x0000000BEBC20007EFCD000000001B16 = .ok (.setupPll .b 27 520141 781250) ∧
  decode 0x00000000000300000001000000080067 = .ok (.setupMs .out2 .b 8 1 3) ∧
  decode 0x00000000000000000000000000005548 = .ok (.enableOutputs true) ∧
  decode 0x000000000000000000000000000000C8 = .error .reservedBits

/-! ### The step (R57, R120) -/

/-- R57: a command waiting on the test port is taken, decoded and run; a reserved one is refused by name (R60). -/
def Obligations.StepRunsTheDecodedCommand : Prop :=
  ∀ (s : State) (w : CmdWord) (rest : List CmdWord), s.port = w :: rest →
    (∀ i, decode w = .ok i → step s = exec i { s with port := rest }) ∧
    (∀ why, decode w = .error why → step s = .refused (.reservedCommand why))

/-- R120, R127: with no command waiting the Mode Controller issues BOOT in RESET and the second half of POLL in SETTLE
(the first half, in IDLE, is `WiredSampleReadsThePinOnce`). How commands and the wired system share the step is the
model's choice (logs 1 and 2). -/
def Obligations.StepWithoutCommandIsTheModeControllers : Prop :=
  ∀ s : State, s.port = [] →
    (s.pc = .reset → step s = exec .boot s) ∧ (s.pc = .settle → step s = exec .poll s)

/-- R124: the first half of POLL is one pin read; `mc.pc` becomes SETTLE when the level differs from the committed one
and stays IDLE when it does not; nothing is written. -/
def Obligations.WiredSampleReadsThePinOnce : Prop :=
  ∀ (s : State) (c : Bool), s.port = [] → s.pc = .idle → s.committed = some c →
    step s = .next { s with
      pc := if s.pinLevel 0 = c then .idle else .settle
      trace := s.trace ++ [.pinRead (s.pinLevel 0)]
      pinInput := s.pinInput.tail
      pinReads := s.pinReads + 1
      result := .nothing }

/-- R125: the second half of POLL waits and reads again; a level back at the committed one is discarded, a level that
still differs is committed and CHANGE_FREQ runs. The same for a POLL command issued in SETTLE (log 11). -/
def Obligations.ConfirmCommitsOrDiscards : Prop :=
  ∀ (s : State) (c : Bool), s.pc = .settle → s.committed = some c →
    (s.pinLevel 0 = c → exec .poll s = .next { s with
      pc := .idle
      trace := s.trace ++ [.delay Config.settleMs, .pinRead c]
      pinInput := s.pinInput.tail
      pinReads := s.pinReads + 1
      result := .nothing }) ∧
    (s.pinLevel 0 ≠ c → ∃ m, exec .poll s = .next { s with
      regs := m
      ms0 := some (changeFreqRecord (!c))
      ms1 := some (changeFreqRecord (!c))
      pc := .idle
      committed := some (!c)
      trace := s.trace ++ ([.delay Config.settleMs, .pinRead (!c)] ++ changeFreqEvents (!c))
      pinInput := s.pinInput.tail
      pinReads := s.pinReads + 1
      result := .nothing } ∧ Recorded s.regs m (changeFreqEvents (!c)))

/-- R127: a POLL command from IDLE is the composition of the controller's two halves. -/
def Obligations.PollCommandComposesTheTwoHalves : Prop :=
  ∀ (s : State) (c : Bool), s.port = [] → s.pc = .idle → s.committed = some c →
    exec .poll s = andThen (step s) fun t => if t.pc = .settle then step t else .next t

/-! ### The Divider Encoder (spec/40_divider_encoder.md) -/

/-- R70: the triple ENC_PLL returns, and nothing else changes; under `RANGE_CHECK = on` it is returned exactly when it
is in range, and `RangeError` is raised otherwise. -/
def Obligations.EncPllReturnsThePackedTriple : Prop :=
  ∀ (mult : Byte) (num denom : U32) (s : State),
    ((num ≠ 0 → denom ≠ 0) →
      exec (.encPll mult num denom) s = .next { s with
        result := .triple (if num = 0 then
          { p1 := BitVec.ofInt 32 (128 * mult.toNat - 512), p2 := 0, p3 := denom }
        else
          { p1 := BitVec.ofInt 32 (128 * mult.toNat + fracB32 num.toNat denom.toNat - 512)
            p2 := BitVec.ofInt 32 (128 * num.toNat - denom.toNat * fracB32 num.toNat denom.toNat)
            p3 := denom }) }) ∧
    (∀ mode, encPllOp ⟨mode, .on⟩ mult num denom s =
      if (encodePllZ mode mult num denom).inRange = true ∧ denom ≠ 0 then
        .next { s with result := .triple (encodePllZ mode mult num denom).trunc }
      else .fault (.rangeError { op := .encPll, a := mult.setWidth 32, num := num, denom := denom } s))

/-- R71: the triple ENC_MS returns by its three branches in order, and nothing else changes; under `RANGE_CHECK = on`
as in R70. -/
def Obligations.EncMsReturnsThePackedTriple : Prop :=
  ∀ (div num denom : U32) (s : State),
    ((num ≠ 0 → denom ≠ 0) →
      exec (.encMs div num denom) s = .next { s with
        result := .triple (if num = 0 then
          { p1 := BitVec.ofInt 32 (128 * div.toNat - 512), p2 := 0, p3 := denom }
        else if denom = 1 then
          { p1 := BitVec.ofInt 32 (128 * div.toNat + 128 * num.toNat - 512)
            p2 := BitVec.ofInt 32 (128 * num.toNat - 128)
            p3 := 1 }
        else
          { p1 := BitVec.ofInt 32 (128 * div.toNat + fracB32 num.toNat denom.toNat - 512)
            p2 := BitVec.ofInt 32 (128 * num.toNat - denom.toNat * fracB32 num.toNat denom.toNat)
            p3 := denom }) }) ∧
    (∀ mode, encMsOp ⟨mode, .on⟩ div num denom s =
      if (encodeMsZ mode div num denom).inRange = true ∧ denom ≠ 0 then
        .next { s with result := .triple (encodeMsZ mode div num denom).trunc }
      else .fault (.rangeError { op := .encMs, a := div, num := num, denom := denom } s))

/-- R78, for ENC_PLL: integer mode gives `P2 = 0`, `P3 = denom` and, from `mult = 4` on, `P1 = 128*mult - 512`
exactly; below 4 it wraps modulo 2^32. -/
def Obligations.IntegerModeTripleOfAPll : Prop :=
  ∀ (mult : Byte) (denom : U32) (s : State), ∃ p1 : U32,
    exec (.encPll mult 0 denom) s = .next { s with result := .triple { p1 := p1, p2 := 0, p3 := denom } } ∧
    (4 ≤ mult.toNat → p1.toNat + 512 = 128 * mult.toNat) ∧
    (mult.toNat < 4 → p1.toNat + 512 = 128 * mult.toNat + 2 ^ 32)

/-- R82 (with its decision D5): a fraction over 0 has no meaning; the four operations that divide are refused by
name. -/
def Obligations.FractionOverZeroIsRefused : Prop :=
  ∀ (num : U32) (s : State), num ≠ 0 →
    (∀ mult, exec (.encPll mult num 0) s = .refused .fractionUndefined) ∧
    (∀ div, exec (.encMs div num 0) s = .refused .fractionUndefined) ∧
    (∀ p mult, exec (.setupPll p mult num 0) s = .refused .fractionUndefined) ∧
    (∀ o src div, exec (.setupMs o src div num 0) s = .refused .fractionUndefined)

/-- R74: `RN32(x)` is `m' * 2^(e-23)` with `2^e <= x < 2^(e+1)` and `m'` the integer nearest to `x / 2^(e-23)`, the even
one on a tie. -/
def Obligations.Binary32RoundingIsNearestEven : Prop :=
  ∀ x : Ratio, 0 < x.num → 0 < x.den → ∃ (e : ℤ) (m : ℕ),
    (2 : ℚ) ^ e ≤ (x.num : ℚ) / x.den ∧ (x.num : ℚ) / x.den < (2 : ℚ) ^ (e + 1) ∧
    |(x.num : ℚ) / x.den / (2 : ℚ) ^ (e - 23) - m| ≤ 1 / 2 ∧
    (|(x.num : ℚ) / x.den / (2 : ℚ) ^ (e - 23) - m| = 1 / 2 → m % 2 = 0) ∧
    (x.rn32.num : ℚ) / x.rn32.den = m * (2 : ℚ) ^ (e - 23)

/-- R76: for operands and quotients that fit binary32 the two fraction modes differ by at most one. -/
def Obligations.Binary32FractionIsExactOrOneMore : Prop :=
  ∀ num denom : ℕ, 0 < num → 0 < denom → num < 2 ^ 24 → denom < 2 ^ 24 → fracExact num denom + 1 < 2 ^ 24 →
    fracB32 num denom = fracExact num denom ∨ fracB32 num denom = fracExact num denom + 1

/-- R76: for proper fractions with a denominator below 2^18 the two fraction modes agree. -/
def Obligations.FractionModesAgreeBelowTwoToThe18 : Prop :=
  ∀ num denom : ℕ, 0 < num → num < denom → denom < 2 ^ 18 → fracB32 num denom = fracExact num denom

/-- R77: in the fractional path `P2` is the remainder under `exact`; where binary32 rounds `frac` up by one, `P2` is
that remainder less `denom`, so it is negative and wraps. -/
def Obligations.FractionalP2IsTheRemainder : Prop :=
  ∀ a num denom : ℕ, 0 < denom →
    (fractionalPath a num denom (fracExact num denom)).p2 = (128 * num % denom : ℕ) ∧
    (fracB32 num denom = fracExact num denom + 1 →
      (fractionalPath a num denom (fracB32 num denom)).p2 = (128 * num % denom : ℕ) - (denom : ℤ) ∧
      (fractionalPath a num denom (fracB32 num denom)).p2 < 0 ∧
      -(denom : ℤ) ≤ (fractionalPath a num denom (fracB32 num denom)).p2)

/-- R81: outside the simplified path the unbounded triple stands for the ratio `a + num/denom` exactly, whatever
`frac` is. -/
def Obligations.TripleStandsForTheRatio : Prop :=
  ∀ (mode : Config.FracMode) (num denom : U32), denom ≠ 0 →
    (∀ mult : Byte,
      (((encodePllZ mode mult num denom).p1 + 512 +
        ((encodePllZ mode mult num denom).p2 : ℚ) / (encodePllZ mode mult num denom).p3) / 128 : ℚ) =
          mult.toNat + (num.toNat : ℚ) / denom.toNat) ∧
    (∀ div : U32, num = 0 ∨ denom ≠ 1 →
      (((encodeMsZ mode div num denom).p1 + 512 +
        ((encodeMsZ mode div num denom).p2 : ℚ) / (encodeMsZ mode div num denom).p3) / 128 : ℚ) =
          div.toNat + (num.toNat : ℚ) / denom.toNat)

/-- R79: the simplified path stands for `div + 2*num - 1`, which is `div + num` for `num = 1` only; the general
path on the same fraction written `(num*t)/t` gives the same `P1`, 0 and `t`: under `exact` for every such fraction, and
under `binary32` (the hardware specified) where `num*t < 2^24`, so that binary32 holds both its parts (R74). -/
def Obligations.SimplifiedPathIsNotTheGeneralOne : Prop :=
  ∀ (mode : Config.FracMode) (div num : U32), num ≠ 0 →
    (((encodeMsZ mode div num 1).p1 + 512 +
      ((encodeMsZ mode div num 1).p2 : ℚ) / (encodeMsZ mode div num 1).p3) / 128 : ℚ) =
        div.toNat + 2 * num.toNat - 1 ∧
    ((div.toNat + 2 * num.toNat - 1 : ℚ) = div.toNat + num.toNat ↔ num = 1) ∧
    (∀ t : ℕ, 1 < t → num.toNat * t < 2 ^ 32 → (mode = .exact ∨ num.toNat * t < 2 ^ 24) →
      encodeMsZ mode div (BitVec.ofNat 32 (num.toNat * t)) (BitVec.ofNat 32 t) =
        { p1 := (encodeMsZ mode div num 1).p1, p2 := 0, p3 := t })

/-- R84: rows of the corner-case table. -/
def Obligations.EncoderCornerCases : Prop :=
  (encodePllZ .binary32 3 0 1).trunc = { p1 := 0xFFFFFF80, p2 := 0, p3 := 1 } ∧
  (encodePllZ .binary32 0 0 0).trunc = { p1 := 0xFFFFFE00, p2 := 0, p3 := 0 } ∧
  (encodePllZ .binary32 25 157699 262149).trunc = { p1 := 2765, p2 := 0xFFFFFFFF, p3 := 262149 } ∧
  (encodePllZ .exact 25 157699 262149).trunc = { p1 := 2764, p2 := 262148, p3 := 262149 } ∧
  (encodeMsZ .binary32 8 3 1).trunc = { p1 := 896, p2 := 256, p3 := 1 } ∧
  (encodeMsZ .binary32 8 6 2).trunc = { p1 := 896, p2 := 0, p3 := 2 }

/-! ### The Register Writer (spec/41_register_writer.md) -/

/-- R91, R51: the eight bytes PACK returns, bit field by bit field, and nothing else changes. -/
def Obligations.PackReturnsTheEightBytes : Prop :=
  ∀ (p1 p2 p3 : U32) (s : State), exec (.pack p1 p2 p3) s = .next { s with
    result := .block
      { b0 := p3.extractLsb' 8 8, b1 := p3.extractLsb' 0 8
        b2 := (0 : BitVec 6) ++ p1.extractLsb' 16 2, b3 := p1.extractLsb' 8 8, b4 := p1.extractLsb' 0 8
        b5 := p3.extractLsb' 16 4 ++ p2.extractLsb' 16 4, b6 := p2.extractLsb' 8 8, b7 := p2.extractLsb' 0 8 } }

/-- R94: UNPACK recovers the low 18, 20 and 20 bits, and so the triple exactly when it fits its fields. -/
def Obligations.UnpackOfPackTruncates : Prop :=
  ∀ t : Triple,
    unpack (pack t) = { p1 := (t.p1.setWidth 18).setWidth 32, p2 := (t.p2.setWidth 20).setWidth 32,
                        p3 := (t.p3.setWidth 20).setWidth 32 } ∧
    (unpack (pack t) = t ↔ t.p1.toNat < 2 ^ 18 ∧ t.p2.toNat < 2 ^ 20 ∧ t.p3.toNat < 2 ^ 20)

/-- R83: a triple in range is recovered from its bytes as the values of the formulas. -/
def Obligations.InRangeTriplesSurviveSerialisation : Prop :=
  ∀ z : TripleZ, z.inRange = true →
    ((unpack (pack z.trunc)).p1.toNat : ℤ) = z.p1 ∧ ((unpack (pack z.trunc)).p2.toNat : ℤ) = z.p2 ∧
      ((unpack (pack z.trunc)).p3.toNat : ℤ) = z.p3

/-- R75: the bytes on the bus depend only on the low 18, 20 and 20 bits of the formulas, so not on the width the sums
are kept in. -/
def Obligations.BytesDependOnTheLowBitsOnly : Prop :=
  ∀ z z' : TripleZ, z.p1 % 2 ^ 18 = z'.p1 % 2 ^ 18 → z.p2 % 2 ^ 20 = z'.p2 % 2 ^ 20 → z.p3 % 2 ^ 20 = z'.p3 % 2 ^ 20 →
    pack z.trunc = pack z'.trunc

/-- R92: WR_REG is one `RegWrite` event and one byte of the image; nothing else of the spec's state changes. That
`result` becomes `nothing` is the model's choice (log 4). -/
def Obligations.WrRegWritesOneRegister : Prop :=
  ∀ (addr val : Byte) (s : State), ∃ m,
    exec (.wrReg addr val) s = .next { s with
      regs := m
      trace := s.trace ++ [.regWrite addr val]
      result := .nothing } ∧
    ∀ a : ℕ, Memory.read m a = if a = addr.toNat then some val else Memory.read s.regs a

/-- R93 (for other bases with decision D23): WR_DIVBLK writes the eight pack bytes in increasing address order, each
address modulo 256; every other address reads as before and nothing else changes. -/
def Obligations.WrDivblkWritesEightRegisters : Prop :=
  ∀ (base : Byte) (p1 p2 p3 : U32) (s : State), ∃ m,
    exec (.wrDivblk base p1 p2 p3) s = .next { s with
      regs := m
      trace := s.trace ++ blockEvents base (pack { p1 := p1, p2 := p2, p3 := p3 })
      result := .nothing } ∧
    (∀ i : ℕ, i < 8 → Memory.read m ((base.toNat + i) % 256) = (pack { p1 := p1, p2 := p2, p3 := p3 }).toList[i]?) ∧
    (∀ a : ℕ, (∀ i : ℕ, i < 8 → a ≠ (base.toNat + i) % 256) → Memory.read m a = Memory.read s.regs a)

/-- R34, R56 (with decision D7 and the general-knowledge value of RW_WRITE, log 8): one register write is five platform
calls. -/
def Obligations.RegisterWriteIsOneBusFrame : Prop :=
  ∀ (addr val : Byte) (s t : State), exec (.wrReg addr val) s = .next t →
    t.platformCalls = s.platformCalls ++
      [.busStart, .busWriteAddress (Config.chipAddr7 ++ (0 : BitVec 1)), .busWriteByte addr, .busWriteByte val, .busStop]

/-! ### The Synthesizer Model (spec/42_synth_model.md) -/

/-- R100 (the order by conflict C1 and decision D10, the cleared records by D12): INIT. -/
def Obligations.InitForcesTheOutputsOff : Prop :=
  ∀ (load : CrystalLoad) (s : State), ∃ m,
    exec (.init load) s = .next { s with
      regs := m
      synthState := .disabled
      xtal := some load
      pllA := none
      pllB := none
      ms0 := none
      ms1 := none
      ms2 := none
      trace := s.trace ++ initEvents load
      result := .nothing } ∧
    Recorded s.regs m (initEvents load)

/-- R102, R103 (the reset byte alone by decision D11, Configured by D12): SETUP_PLL. -/
def Obligations.SetupPllProgramsThePll : Prop :=
  ∀ (p : PllId) (mult : Byte) (num denom : U32) (s : State), (num ≠ 0 → denom ≠ 0) → ∃ (m : Memory) (es : List Event),
    es = blockEvents (match p with | .a => 26 | .b => 34) (pack (encodePllZ .binary32 mult num denom).trunc) ++
      [.regWrite 177 (match p with | .a => 0x20 | .b => 0x80)] ∧
    exec (.setupPll p mult num denom) s = .next { s with
      regs := m
      synthState := if (p = .a ∨ s.pllA.isSome) ∧ (p = .b ∨ s.pllB.isSome) then .configured else s.synthState
      pllA := if p = .a then some { mult := mult, num := num, denom := denom } else s.pllA
      pllB := if p = .b then some { mult := mult, num := num, denom := denom } else s.pllB
      trace := s.trace ++ es
      result := .nothing } ∧
    Recorded s.regs m es

/-- R104, R105: SETUP_MS. -/
def Obligations.SetupMsProgramsTheOutput : Prop :=
  ∀ (o : OutputId) (src : PllId) (div num denom : U32) (s : State), (num ≠ 0 → denom ≠ 0) →
    ∃ (m : Memory) (es : List Event) (r : MsRecord),
    r = { div := div, num := num, denom := denom, src := src, intMode := num == 0 } ∧
    es = blockEvents (match o with | .out0 => 42 | .out1 => 50 | .out2 => 58)
        (pack (encodeMsZ .binary32 div num denom).trunc) ++
      [.regWrite (match o with | .out0 => 16 | .out1 => 17 | .out2 => 18)
        (0x0F ||| (if src = .b then 0x20 else 0) ||| (if num = 0 then 0x40 else 0))] ∧
    exec (.setupMs o src div num denom) s = .next { s with
      regs := m
      ms0 := if o = .out0 then some r else s.ms0
      ms1 := if o = .out1 then some r else s.ms1
      ms2 := if o = .out2 then some r else s.ms2
      trace := s.trace ++ es
      result := .nothing } ∧
    Recorded s.regs m es

/-- R106: ENABLE_OUTPUTS is one write to register 3, zeros for true; an output still powered down stays off,
by the enabled predicate of decision D15 (log 5). That `result` becomes `nothing` is the model's choice (log 4). -/
def Obligations.EnableOutputsWritesTheInvertedMask : Prop :=
  ∀ (enabled : Bool) (s : State), ∃ t,
    exec (.enableOutputs enabled) s = .next t ∧
    t = { s with
      regs := t.regs
      trace := s.trace ++ [.regWrite 3 (if enabled then 0x00 else 0xFF)]
      result := .nothing } ∧
    (∀ a : ℕ, Memory.read t.regs a =
      if a = 3 then some (if enabled then 0x00 else 0xFF) else Memory.read s.regs a) ∧
    (∀ o c, Memory.read s.regs (msCtrl o).toNat = some c → c.getLsbD 7 = true → t.outputEnabled o = false)

/-- R52, R16: the two producers of a control byte. INIT writes 0x80 to all three registers, SETUP_MS one of four values,
its last write; and whatever operation but a bare WR_REG or WR_DIVBLK writes a control register, by itself or through
one of these two, the byte is one of the five. -/
def Obligations.ControlBytesHaveFiveValues : Prop :=
  (∀ load s t, exec (.init load) s = .next t →
    ∀ o, Memory.read t.regs (msCtrl o).toNat = some 0x80) ∧
  (∀ o src div num denom s t, exec (.setupMs o src div num denom) s = .next t →
    ∃ c : Byte, Memory.read t.regs (msCtrl o).toNat = some c ∧ t.trace.getLast? = some (.regWrite (msCtrl o) c) ∧
      c = match src, num == 0 with
        | .a, false => 0x0F
        | .b, false => 0x2F
        | .a, true => 0x4F
        | .b, true => 0x6F) ∧
  (∀ (i : Instr) (s t : State) (es : List Event), (∀ addr val, i ≠ .wrReg addr val) →
    (∀ base p1 p2 p3, i ≠ .wrDivblk base p1 p2 p3) → exec i s = .next t → t.trace = s.trace ++ es →
    ∀ o v, .regWrite (msCtrl o) v ∈ es → v = 0x80 ∨ v = 0x0F ∨ v = 0x2F ∨ v = 0x4F ∨ v = 0x6F)

/-- R164, R169: in the events of SETUP_PLL the reset write is the ninth and last, after the eight divider bytes and
never before them; in those of SETUP_MS the control register is; and a bare WR_DIVBLK on a PLL's base leaves the reset
owed. -/
def Obligations.ResetAndControlComeAfterTheirBlock : Prop :=
  (∀ p mult num denom s t es, exec (.setupPll p mult num denom) s = .next t → t.trace = s.trace ++ es →
    ∃ (b : Block) (v : Byte), es = blockEvents (pllBase p) b ++ [.regWrite 177 v] ∧
      ∀ w, .regWrite 177 w ∉ blockEvents (pllBase p) b) ∧
  (∀ o src div num denom s t es, exec (.setupMs o src div num denom) s = .next t → t.trace = s.trace ++ es →
    ∃ (b : Block) (v : Byte), es = blockEvents (msBase o) b ++ [.regWrite (msCtrl o) v] ∧
      ∀ w, .regWrite (msCtrl o) w ∉ blockEvents (msBase o) b) ∧
  (∀ p p1 p2 p3 s, ∃ t es, exec (.wrDivblk (pllBase p) p1 p2 p3) s = .next t ∧ t.trace = s.trace ++ es ∧
    ∀ w, .regWrite 177 w ∉ es)

/-- From R63's table: a pseudo-operation adds to the trace what its expansion adds, operation by operation. Outside
it: a fraction over 0, which R82 leaves undefined (log 9), and CHANGE_FREQ in SETTLE, which U6 gives no meaning
(log 10). -/
def Obligations.PseudoOperationsExpand : Prop :=
  ∀ s : State,
    (∀ base p1 p2 p3, ∃ t u, exec (.wrDivblk base p1 p2 p3) s = .next t ∧
      (fun (b : Block) => andThen (exec (.wrReg base b.b0) s) fun s => andThen (exec (.wrReg (base + 1) b.b1) s) fun s =>
        andThen (exec (.wrReg (base + 2) b.b2) s) fun s => andThen (exec (.wrReg (base + 3) b.b3) s) fun s =>
        andThen (exec (.wrReg (base + 4) b.b4) s) fun s => andThen (exec (.wrReg (base + 5) b.b5) s) fun s =>
        andThen (exec (.wrReg (base + 6) b.b6) s) (exec (.wrReg (base + 7) b.b7)))
          (pack { p1 := p1, p2 := p2, p3 := p3 }) = .next u ∧ t.trace = u.trace) ∧
    (∀ p mult num denom, (num ≠ 0 → denom ≠ 0) → ∃ x t u,
      exec (.encPll mult num denom) s = .next { s with result := .triple x } ∧
      exec (.setupPll p mult num denom) s = .next t ∧
      (andThen (exec (.wrDivblk (pllBase p) x.p1 x.p2 x.p3) s) (exec (.wrReg 177 (pllResetByte p)))) = .next u ∧
      t.trace = u.trace) ∧
    (∀ o src div num denom, (num ≠ 0 → denom ≠ 0) → ∃ x t u,
      exec (.encMs div num denom) s = .next { s with result := .triple x } ∧
      exec (.setupMs o src div num denom) s = .next t ∧
      (andThen (exec (.wrDivblk (msBase o) x.p1 x.p2 x.p3) s) (exec (.wrReg (msCtrl o) (ctrlByte src num)))) = .next u ∧
      t.trace = u.trace) ∧
    (∀ level, s.pc ≠ .settle → ∃ t u,
      exec (.changeFreq level) s = .next t ∧
      (andThen (exec (.enableOutputs false) s) fun s =>
        andThen (exec (.setupMs .out0 (levelTarget level).1 (levelTarget level).2 0 1) s) fun s =>
        andThen (exec (.setupMs .out1 (levelTarget level).1 (levelTarget level).2 0 1) s)
          (exec (.enableOutputs true))) = .next u ∧
      t.trace = u.trace) ∧
    (s.pc = .reset → ∃ t u v,
      exec .boot s = .next t ∧
      (andThen (exec (.init Config.bootXtal) s.configurePin) fun s => andThen (exec (.setupPll .a 25 193181 250000) s)
        (exec (.setupPll .b Config.pllbRatio.mult Config.pllbRatio.num Config.pllbRatio.denom))) = .next u ∧
      exec (.changeFreq (s.pinLevel 0)) u.readPin = .next v ∧
      t.trace = v.trace)

/-- R101 (Configured by decision D12): the transitions of `synth.state`, by every operation. -/
def Obligations.SynthStateTransitions : Prop :=
  ∀ (i : Instr) (s t : State), exec i s = .next t →
    t.synthState =
      match i with
      | .init _ => .disabled
      | .setupPll .a .. => if s.pllB.isSome then .configured else s.synthState
      | .setupPll .b .. => if s.pllA.isSome then .configured else s.synthState
      | .boot => .configured
      | _ => s.synthState

/-- R27 (decision D15): no output is enabled after INIT; after CHANGE_FREQ outputs 0 and 1 are, and output 2 is not
while its control register still says powered down. -/
def Obligations.EnabledOutputsFollowTheImage : Prop :=
  (∀ load s t o, exec (.init load) s = .next t → t.outputEnabled o = false) ∧
  (∀ level s t, exec (.changeFreq level) s = .next t →
    t.outputEnabled .out0 = true ∧ t.outputEnabled .out1 = true ∧
    (Memory.read s.regs 18 = some 0x80 → t.outputEnabled .out2 = false))

/-- R142 (decision D4), the variant `RANGE_CHECK = on`: SETUP_PLL and SETUP_MS raise before any write, in the state they
were called in, exactly when the triple is out of range or `denom` is 0, and otherwise do what they do without the
check. -/
def Obligations.RangeCheckRaisesBeforeAnyWrite : Prop :=
  ∀ (mode : Config.FracMode) (num denom : U32) (s : State),
    (∀ p mult, setupPllOp ⟨mode, .on⟩ p mult num denom s =
      if (encodePllZ mode mult num denom).inRange = true ∧ denom ≠ 0 then setupPllOp ⟨mode, .off⟩ p mult num denom s
      else .fault (.rangeError { op := .encPll, a := mult.setWidth 32, num := num, denom := denom } s)) ∧
    (∀ o src div, setupMsOp ⟨mode, .on⟩ o src div num denom s =
      if (encodeMsZ mode div num denom).inRange = true ∧ denom ≠ 0 then
        setupMsOp ⟨mode, .off⟩ o src div num denom s
      else .fault (.rangeError { op := .encMs, a := div, num := num, denom := denom } s))

/-- R142, R171: with the NTSC ratio and the divisors 30 and 26 the variant never raises, so CHANGE_FREQ runs as it does
without the check. BOOT does too when the OPEN PAL ratio meets the operand duty; when it does not, BOOT raises at the
set-up of PLL B and stops there: the pin configuration, INIT's writes and those of PLL A stand, and `mc.pc`,
`mc.committed` and the pin are untouched (that a raise is a fault holding this state is log 6). -/
def Obligations.WiredConstantsAreInRange : Prop :=
  ∀ mode : Config.FracMode,
    operandDuty (encodePllZ mode 25 193181 250000) 250000 = true ∧
    operandDuty (encodeMsZ mode 30 0 1) 1 = true ∧ operandDuty (encodeMsZ mode 26 0 1) 1 = true ∧
    (∀ (level : Bool) (s : State), changeFreqOp ⟨mode, .on⟩ level s = changeFreqOp ⟨mode, .off⟩ level s) ∧
    (∀ s : State, s.pc = .reset → ∃ (m : Memory) (es : List Event),
      es = [.pinConfig Config.swPin Config.swMode] ++ initEvents Config.bootXtal ++ ntscPllEvents ∧
      bootOp ⟨mode, .on⟩ s =
        (if palRatioInRange mode = true then bootOp ⟨mode, .off⟩ s
        else .fault (.rangeError
          { op := .encPll, a := Config.pllbRatio.mult.setWidth 32, num := Config.pllbRatio.num,
            denom := Config.pllbRatio.denom }
          { s with
            regs := m
            synthState := .disabled
            xtal := some Config.bootXtal
            pllA := some { mult := 25, num := 193181, denom := 250000 }
            pllB := none
            ms0 := none
            ms1 := none
            ms2 := none
            trace := s.trace ++ es })) ∧
      Recorded s.regs m es)

/-! ### The Mode Controller (spec/43_mode_controller.md) -/

/-- R122 (the pin events by decision D17): BOOT in RESET. -/
def Obligations.BootProgramsThePllsAndCommits : Prop :=
  ∀ s : State, s.pc = .reset → ∃ m,
    exec .boot s = .next { s with
      regs := m
      synthState := .configured
      xtal := some Config.bootXtal
      pllA := some { mult := 25, num := 193181, denom := 250000 }
      pllB := some { mult := Config.pllbRatio.mult, num := Config.pllbRatio.num, denom := Config.pllbRatio.denom }
      ms0 := some (changeFreqRecord (s.pinLevel 0))
      ms1 := some (changeFreqRecord (s.pinLevel 0))
      ms2 := none
      pc := .idle
      committed := some (s.pinLevel 0)
      trace := s.trace ++ (bootPrefix ++ [.pinRead (s.pinLevel 0)] ++ changeFreqEvents (s.pinLevel 0))
      pinInput := s.pinInput.tail
      pinReads := s.pinReads + 1
      result := .nothing } ∧
    Recorded s.regs m (bootPrefix ++ [.pinRead (s.pinLevel 0)] ++ changeFreqEvents (s.pinLevel 0))

/-- R126 (`denom` and the order of the outputs by decision D16): CHANGE_FREQ, outside SETTLE (U6, log 10). -/
def Obligations.ChangeFreqRetunesTheTwoOutputs : Prop :=
  ∀ (level : Bool) (s : State), s.pc ≠ .settle → ∃ m,
    exec (.changeFreq level) s = .next { s with
      regs := m
      ms0 := some (changeFreqRecord level)
      ms1 := some (changeFreqRecord level)
      trace := s.trace ++ changeFreqEvents level
      result := .nothing } ∧
    Recorded s.regs m (changeFreqEvents level)

/-- R124, R125: a POLL command in IDLE: nothing but the read when the level is the committed one; a discarded
transition when the second read is back at it; a commit and CHANGE_FREQ when both reads differ from it. -/
def Obligations.PollDebouncesTheSwitch : Prop :=
  ∀ (s : State) (c : Bool), s.pc = .idle → s.committed = some c →
    (s.pinLevel 0 = c → exec .poll s = .next { s with
      trace := s.trace ++ [.pinRead c]
      pinInput := s.pinInput.tail
      pinReads := s.pinReads + 1
      result := .nothing }) ∧
    (s.pinLevel 0 ≠ c → s.pinLevel 1 = c → exec .poll s = .next { s with
      trace := s.trace ++ [.pinRead (!c), .delay Config.settleMs, .pinRead c]
      pinInput := s.pinInput.tail.tail
      pinReads := s.pinReads + 2
      result := .nothing }) ∧
    (s.pinLevel 0 ≠ c → s.pinLevel 1 ≠ c → ∃ m, exec .poll s = .next { s with
      regs := m
      ms0 := some (changeFreqRecord (!c))
      ms1 := some (changeFreqRecord (!c))
      committed := some (!c)
      trace := s.trace ++ ([.pinRead (!c), .delay Config.settleMs, .pinRead (!c)] ++ changeFreqEvents (!c))
      pinInput := s.pinInput.tail.tail
      pinReads := s.pinReads + 2
      result := .nothing } ∧ Recorded s.regs m (changeFreqEvents (!c)))

/-- U6 (log 10) and R124's precondition (log 12): operations issued where the spec gives them no meaning are refused by
name. The model's choice of stop. -/
def Obligations.OutOfPlaceOperationsAreRefused : Prop :=
  ∀ s : State,
    (s.pc ≠ .reset → exec .boot s = .refused .bootOutsideReset) ∧
    (s.pc = .reset → exec .poll s = .refused .pollBeforeBoot) ∧
    (s.pc ≠ .reset → s.committed = none → exec .poll s = .refused .pollWithoutCommitted) ∧
    (∀ level, s.pc = .settle → exec (.changeFreq level) s = .refused .changeFreqWhileSettling)

/-- R20, R21, R126: only BOOT and POLL change the sequencer position, the committed level or read the pin. -/
def Obligations.OnlyBootAndPollMoveTheController : Prop :=
  ∀ (i : Instr) (s t : State), i ≠ .boot → i ≠ .poll → exec i s = .next t →
    t.pc = s.pc ∧ t.committed = s.committed ∧ t.pinInput = s.pinInput ∧ t.pinReads = s.pinReads

/-- R126, R131: POLL and CHANGE_FREQ, the only operations the wired system runs after BOOT (R109), write no PLL block, no
PLL reset, no crystal load and nothing of output 2. Other commands from the test port may. -/
def Obligations.PollsLeaveThePllsUntouched : Prop :=
  ∀ (i : Instr) (s t : State), (i = .poll ∨ ∃ level, i = .changeFreq level) → exec i s = .next t →
    t.pllA = s.pllA ∧ t.pllB = s.pllB ∧ t.xtal = s.xtal ∧ t.ms2 = s.ms2 ∧ t.synthState = s.synthState ∧
    ∃ es, t.trace = s.trace ++ es ∧ Recorded s.regs t.regs es ∧
      ∀ w ∈ writesOf es, w.1 = 3 ∨ w.1 = 16 ∨ w.1 = 17 ∨ (42 ≤ w.1.toNat ∧ w.1.toNat ≤ 57)

/-- R128: a transition that stays is committed exactly once: two polls' halves commit it, and every further poll only
reads the pin. -/
def Obligations.StableTransitionTriggersChangeFreqOnce : Prop :=
  ∀ (s : State) (c : Bool) (n : ℕ), s.port = [] → s.pc = .idle → s.committed = some c →
    (∀ k, k < n + 2 → s.pinLevel k = !c) → ∃ t,
    Sys2Proof.core.run (n + 2) s = .next t ∧ t.pc = .idle ∧ t.committed = some (!c) ∧
    t.trace = s.trace ++ ([.pinRead (!c), .delay Config.settleMs, .pinRead (!c)] ++ changeFreqEvents (!c) ++
      List.replicate n (.pinRead (!c)))

/-- R128: a poll writes the chip exactly when both its reads differ from the committed level. -/
def Obligations.PollWritesOnlyOnAConfirmedTransition : Prop :=
  ∀ (s t : State) (c : Bool) (es : List Event), s.pc = .idle → s.committed = some c → exec .poll s = .next t →
    t.trace = s.trace ++ es → (writesOf es ≠ [] ↔ s.pinLevel 0 ≠ c ∧ s.pinLevel 1 ≠ c)

/-! ### Reset and invariants (spec/10_state.md) -/

/-- R25 (with decisions D17, D24, D25 and D26; the last four fields are the model's own, logs 2, 3 and 4, and are not
claimed here). -/
def Obligations.ResetLeavesTheSpecsValues : Prop :=
  State.reset.synthState = .disabled ∧ State.reset.xtal = none ∧ (∀ p, State.reset.pll p = none) ∧
  (∀ o, State.reset.ms o = none) ∧ (∀ a, Memory.read State.reset.regs a = none) ∧ State.reset.pc = .reset ∧
  State.reset.committed = none ∧ State.reset.trace = []

/-- R14, R20, R24, R25: the invariants hold at reset. The canonical form of the image (its addresses strictly rising) is
the model's own (log 13), and that the test port is empty at reset is the model's choice (log 2). -/
def Obligations.ResetMeetsTheInvariants : Prop :=
  Memory.wf State.reset.regs = true ∧ ImageMirrorsTrace State.reset ∧ ControllerConsistent State.reset ∧
    Linked State.reset ∧ WiredInv State.reset

/-- The image stays in canonical form: all its addresses of 8 bits (R30), and strictly rising, which is the model's own
form of R14's image (log 13). -/
def Obligations.StepKeepsTheImageCanonical : Prop :=
  ∀ s t : State, Memory.wf s.regs = true → step s = .next t → Memory.wf t.regs = true

/-- R14: the image holds the last byte written to each address, after every step. -/
def Obligations.StepKeepsTheImageMirroringTheTrace : Prop :=
  ∀ s t : State, ImageMirrorsTrace s → step s = .next t → ImageMirrorsTrace t

/-- R20, R21, R124: no level is committed exactly in RESET, after every step. -/
def Obligations.StepKeepsTheControllerConsistent : Prop :=
  ∀ s t : State, ControllerConsistent s → step s = .next t → ControllerConsistent t

/-- R24: the links between the abstract configuration and the image are kept by every step that is not a WR_REG or
WR_DIVBLK issued on its own (R92). -/
def Obligations.StepKeepsTheConfigurationLinked : Prop :=
  ∀ s t : State, Linked s →
    (∀ w rest i, s.port = w :: rest → decode w = .ok i →
      (∀ addr val, i ≠ .wrReg addr val) ∧ (∀ base p1 p2 p3, i ≠ .wrDivblk base p1 p2 p3)) →
    step s = .next t → Linked t

/-- R22, R37: the trace only grows, and what it gains is what the image records. -/
def Obligations.StepOnlyExtendsTheTrace : Prop :=
  ∀ s t : State, step s = .next t → ∃ es, t.trace = s.trace ++ es ∧ Recorded s.regs t.regs es

/-- R40, R108: what an operation emits depends on its operands, the sequencer and the pin reads only, never on the
image, the abstract configuration, earlier events or results. -/
def Obligations.EventsDoNotDependOnTheRecords : Prop :=
  ∀ (i : Instr) (s s' t : State), s.pc = s'.pc → s.committed = s'.committed → s.pinInput = s'.pinInput →
    s.pinReads = s'.pinReads → exec i s = .next t →
    ∃ t' es, exec i s' = .next t' ∧ t.trace = s.trace ++ es ∧ t'.trace = s'.trace ++ es ∧
      t.pc = t'.pc ∧ t.committed = t'.committed

/-- R14, R31: every operation but WR_REG and WR_DIVBLK writes only the 46 addresses. -/
def Obligations.OnlyTheWiredAddressesAreWritten : Prop :=
  ∀ (i : Instr) (s t : State) (es : List Event), (∀ addr val, i ≠ .wrReg addr val) →
    (∀ base p1 p2 p3, i ≠ .wrDivblk base p1 p2 p3) → exec i s = .next t → t.trace = s.trace ++ es →
    OnlyWired (writesOf es) = true

/-! ### The wired system (R120) -/

/-- R120, R171, R161 to R169, R101, R109, R130, as a step from any state: while no command waits (log 2), the wired system
always takes a next step; BOOT from a fresh RESET establishes the running system, with its configuration and every duty
met, and each half of POLL keeps it. That primitives always return is log 16. -/
def Obligations.StepKeepsTheWiredSystemRunning : Prop :=
  ∀ s : State, WiredInv s → ∃ t, step s = .next t ∧ WiredInv t ∧ WiredRunning t

/-- R120: whatever the switch does, the wired system never stops, and leaves RESET at its first step. It rests on
primitives that always return (log 16) and on a test port empty at reset (log 2). -/
def Obligations.WiredSystemNeverStops : Prop :=
  ∀ (pins : List Bool) (n : ℕ), ∃ t, wiredRun pins n = .next t ∧ (t.pc = .reset ↔ n = 0)

/-- R171: whatever the switch does, the wired system meets every duty: R161's order of BOOT once it has run, the ordering
duties R162 to R166 and R169, and the operand duty R168 (for the OPEN PAL ratio if its value does); it writes only the
46 addresses. It rests on a test port empty at reset (log 2). -/
def Obligations.WiredSystemMeetsEveryDuty : Prop :=
  ∀ (pins : List Bool) (n : ℕ) (t : State), wiredRun pins n = .next t →
    MeetsOrderingDuties (writesOf t.trace) = true ∧ (t.pc ≠ .reset → BootFirst t.trace) ∧ OperandsInRange t

/-- R101, R109, R130: from its first step on the wired system keeps the configuration BOOT gave it, and the two
multisynths are those of the selected mode. The enabled predicate is decision D15 and the records' `denom` decision D16
(log 5); it rests on a test port empty at reset (log 2). -/
def Obligations.WiredSystemStaysConfigured : Prop :=
  ∀ (pins : List Bool) (n : ℕ) (t : State), wiredRun pins (n + 1) = .next t →
    t.synthState = .configured ∧ t.xtal = some Config.bootXtal ∧
    t.pllA = some { mult := 25, num := 193181, denom := 250000 } ∧
    t.pllB = some { mult := Config.pllbRatio.mult, num := Config.pllbRatio.num, denom := Config.pllbRatio.denom } ∧
    t.ms2 = none ∧ t.outputEnabled .out0 = true ∧ t.outputEnabled .out1 = true ∧ t.outputEnabled .out2 = false ∧
    ∃ c, t.committed = some c ∧ t.ms0 = some (changeFreqRecord c) ∧ t.ms1 = some (changeFreqRecord c)
end

