-- ==== Sys2Proof/Laws/Decode.lean ====
section
/-!
SUPPORT. A command word and its fields determine each other (spec/30_encoding.md R57).
-/

namespace Sys2Proof

/-- The fields of a word built from fields are those fields. -/
@[simp] theorem cmdFields_toWord (f : CmdFields) : cmdFields f.toWord = f := by
  obtain ⟨op, id, flag, zeroLo, b8, x, n, d, zeroHi⟩ := f
  simp only [cmdFields, CmdFields.toWord, CmdFields.mk.injEq]
  refine ⟨?_, ?_, ?_, ?_, ?_, ?_, ?_, ?_, ?_⟩ <;>
  · ext i hi
    simp only [BitVec.getElem_extractLsb', BitVec.getLsbD_append]
    grind

/-- The word built from a word's fields is that word: no bit of it lies outside its fields. -/
@[simp] theorem toWord_cmdFields (w : CmdWord) : (cmdFields w).toWord = w := by
  simp only [cmdFields, CmdFields.toWord]
  ext i hi
  simp only [BitVec.getElem_append, BitVec.getElem_extractLsb']
  grind

/-- Two words are equal when their fields are. -/
theorem cmdWord_ext {w v : CmdWord} (h : cmdFields w = cmdFields v) : w = v := by
  rw [← toWord_cmdFields w, h, toWord_cmdFields]

end Sys2Proof
end

