-- ==== Sys2Proof/Laws/State.lean ====
section
/-!
SUPPORT. One lemma per field per update of the state: what each named update of Machine/Ops.lean leaves in each field.
-/

namespace Sys2Proof.Machine

/-! ### `State.emit` -/

@[simp] theorem State.emit_regs (s : State) (e : Event) :
    (s.emit e).regs = s.regs := rfl

@[simp] theorem State.emit_synthState (s : State) (e : Event) :
    (s.emit e).synthState = s.synthState := rfl

@[simp] theorem State.emit_xtal (s : State) (e : Event) :
    (s.emit e).xtal = s.xtal := rfl

@[simp] theorem State.emit_pllA (s : State) (e : Event) :
    (s.emit e).pllA = s.pllA := rfl

@[simp] theorem State.emit_pllB (s : State) (e : Event) :
    (s.emit e).pllB = s.pllB := rfl

@[simp] theorem State.emit_ms0 (s : State) (e : Event) :
    (s.emit e).ms0 = s.ms0 := rfl

@[simp] theorem State.emit_ms1 (s : State) (e : Event) :
    (s.emit e).ms1 = s.ms1 := rfl

@[simp] theorem State.emit_ms2 (s : State) (e : Event) :
    (s.emit e).ms2 = s.ms2 := rfl

@[simp] theorem State.emit_pc (s : State) (e : Event) :
    (s.emit e).pc = s.pc := rfl

@[simp] theorem State.emit_committed (s : State) (e : Event) :
    (s.emit e).committed = s.committed := rfl

@[simp] theorem State.emit_trace (s : State) (e : Event) :
    (s.emit e).trace = s.trace ++ [e] := rfl

@[simp] theorem State.emit_port (s : State) (e : Event) :
    (s.emit e).port = s.port := rfl

@[simp] theorem State.emit_result (s : State) (e : Event) :
    (s.emit e).result = s.result := rfl

@[simp] theorem State.emit_pinInput (s : State) (e : Event) :
    (s.emit e).pinInput = s.pinInput := rfl

@[simp] theorem State.emit_pinReads (s : State) (e : Event) :
    (s.emit e).pinReads = s.pinReads := rfl

@[simp] theorem State.emit_pinLevel (s : State) (e : Event) (k : Nat) :
    (s.emit e).pinLevel k = s.pinLevel k := rfl

/-! ### `State.storeReg` -/

@[simp] theorem State.storeReg_regs (s : State) (addr val : Byte) :
    (s.storeReg addr val).regs = Memory.write s.regs addr.toNat val := rfl

@[simp] theorem State.storeReg_synthState (s : State) (addr val : Byte) :
    (s.storeReg addr val).synthState = s.synthState := rfl

@[simp] theorem State.storeReg_xtal (s : State) (addr val : Byte) :
    (s.storeReg addr val).xtal = s.xtal := rfl

@[simp] theorem State.storeReg_pllA (s : State) (addr val : Byte) :
    (s.storeReg addr val).pllA = s.pllA := rfl

@[simp] theorem State.storeReg_pllB (s : State) (addr val : Byte) :
    (s.storeReg addr val).pllB = s.pllB := rfl

@[simp] theorem State.storeReg_ms0 (s : State) (addr val : Byte) :
    (s.storeReg addr val).ms0 = s.ms0 := rfl

@[simp] theorem State.storeReg_ms1 (s : State) (addr val : Byte) :
    (s.storeReg addr val).ms1 = s.ms1 := rfl

@[simp] theorem State.storeReg_ms2 (s : State) (addr val : Byte) :
    (s.storeReg addr val).ms2 = s.ms2 := rfl

@[simp] theorem State.storeReg_pc (s : State) (addr val : Byte) :
    (s.storeReg addr val).pc = s.pc := rfl

@[simp] theorem State.storeReg_committed (s : State) (addr val : Byte) :
    (s.storeReg addr val).committed = s.committed := rfl

@[simp] theorem State.storeReg_trace (s : State) (addr val : Byte) :
    (s.storeReg addr val).trace = s.trace := rfl

@[simp] theorem State.storeReg_port (s : State) (addr val : Byte) :
    (s.storeReg addr val).port = s.port := rfl

@[simp] theorem State.storeReg_result (s : State) (addr val : Byte) :
    (s.storeReg addr val).result = s.result := rfl

@[simp] theorem State.storeReg_pinInput (s : State) (addr val : Byte) :
    (s.storeReg addr val).pinInput = s.pinInput := rfl

@[simp] theorem State.storeReg_pinReads (s : State) (addr val : Byte) :
    (s.storeReg addr val).pinReads = s.pinReads := rfl

@[simp] theorem State.storeReg_pinLevel (s : State) (addr val : Byte) (k : Nat) :
    (s.storeReg addr val).pinLevel k = s.pinLevel k := rfl

/-! ### `State.setSynthState` -/

@[simp] theorem State.setSynthState_regs (s : State) (st : SynthState) :
    (s.setSynthState st).regs = s.regs := rfl

@[simp] theorem State.setSynthState_synthState (s : State) (st : SynthState) :
    (s.setSynthState st).synthState = st := rfl

@[simp] theorem State.setSynthState_xtal (s : State) (st : SynthState) :
    (s.setSynthState st).xtal = s.xtal := rfl

@[simp] theorem State.setSynthState_pllA (s : State) (st : SynthState) :
    (s.setSynthState st).pllA = s.pllA := rfl

@[simp] theorem State.setSynthState_pllB (s : State) (st : SynthState) :
    (s.setSynthState st).pllB = s.pllB := rfl

@[simp] theorem State.setSynthState_ms0 (s : State) (st : SynthState) :
    (s.setSynthState st).ms0 = s.ms0 := rfl

@[simp] theorem State.setSynthState_ms1 (s : State) (st : SynthState) :
    (s.setSynthState st).ms1 = s.ms1 := rfl

@[simp] theorem State.setSynthState_ms2 (s : State) (st : SynthState) :
    (s.setSynthState st).ms2 = s.ms2 := rfl

@[simp] theorem State.setSynthState_pc (s : State) (st : SynthState) :
    (s.setSynthState st).pc = s.pc := rfl

@[simp] theorem State.setSynthState_committed (s : State) (st : SynthState) :
    (s.setSynthState st).committed = s.committed := rfl

@[simp] theorem State.setSynthState_trace (s : State) (st : SynthState) :
    (s.setSynthState st).trace = s.trace := rfl

@[simp] theorem State.setSynthState_port (s : State) (st : SynthState) :
    (s.setSynthState st).port = s.port := rfl

@[simp] theorem State.setSynthState_result (s : State) (st : SynthState) :
    (s.setSynthState st).result = s.result := rfl

@[simp] theorem State.setSynthState_pinInput (s : State) (st : SynthState) :
    (s.setSynthState st).pinInput = s.pinInput := rfl

@[simp] theorem State.setSynthState_pinReads (s : State) (st : SynthState) :
    (s.setSynthState st).pinReads = s.pinReads := rfl

@[simp] theorem State.setSynthState_pinLevel (s : State) (st : SynthState) (k : Nat) :
    (s.setSynthState st).pinLevel k = s.pinLevel k := rfl

/-! ### `State.setXtal` -/

@[simp] theorem State.setXtal_regs (s : State) (c : CrystalLoad) :
    (s.setXtal c).regs = s.regs := rfl

@[simp] theorem State.setXtal_synthState (s : State) (c : CrystalLoad) :
    (s.setXtal c).synthState = s.synthState := rfl

@[simp] theorem State.setXtal_xtal (s : State) (c : CrystalLoad) :
    (s.setXtal c).xtal = some c := rfl

@[simp] theorem State.setXtal_pllA (s : State) (c : CrystalLoad) :
    (s.setXtal c).pllA = s.pllA := rfl

@[simp] theorem State.setXtal_pllB (s : State) (c : CrystalLoad) :
    (s.setXtal c).pllB = s.pllB := rfl

@[simp] theorem State.setXtal_ms0 (s : State) (c : CrystalLoad) :
    (s.setXtal c).ms0 = s.ms0 := rfl

@[simp] theorem State.setXtal_ms1 (s : State) (c : CrystalLoad) :
    (s.setXtal c).ms1 = s.ms1 := rfl

@[simp] theorem State.setXtal_ms2 (s : State) (c : CrystalLoad) :
    (s.setXtal c).ms2 = s.ms2 := rfl

@[simp] theorem State.setXtal_pc (s : State) (c : CrystalLoad) :
    (s.setXtal c).pc = s.pc := rfl

@[simp] theorem State.setXtal_committed (s : State) (c : CrystalLoad) :
    (s.setXtal c).committed = s.committed := rfl

@[simp] theorem State.setXtal_trace (s : State) (c : CrystalLoad) :
    (s.setXtal c).trace = s.trace := rfl

@[simp] theorem State.setXtal_port (s : State) (c : CrystalLoad) :
    (s.setXtal c).port = s.port := rfl

@[simp] theorem State.setXtal_result (s : State) (c : CrystalLoad) :
    (s.setXtal c).result = s.result := rfl

@[simp] theorem State.setXtal_pinInput (s : State) (c : CrystalLoad) :
    (s.setXtal c).pinInput = s.pinInput := rfl

@[simp] theorem State.setXtal_pinReads (s : State) (c : CrystalLoad) :
    (s.setXtal c).pinReads = s.pinReads := rfl

@[simp] theorem State.setXtal_pinLevel (s : State) (c : CrystalLoad) (k : Nat) :
    (s.setXtal c).pinLevel k = s.pinLevel k := rfl

/-! ### `State.setPll` -/

@[simp] theorem State.setPll_regs (s : State) (p : PllId) (r : PllRecord) :
    (s.setPll p r).regs = s.regs := rfl

@[simp] theorem State.setPll_synthState (s : State) (p : PllId) (r : PllRecord) :
    (s.setPll p r).synthState = s.synthState := rfl

@[simp] theorem State.setPll_xtal (s : State) (p : PllId) (r : PllRecord) :
    (s.setPll p r).xtal = s.xtal := rfl

@[simp] theorem State.setPll_pllA (s : State) (p : PllId) (r : PllRecord) :
    (s.setPll p r).pllA = if p = .a then some r else s.pllA := rfl

@[simp] theorem State.setPll_pllB (s : State) (p : PllId) (r : PllRecord) :
    (s.setPll p r).pllB = if p = .b then some r else s.pllB := rfl

@[simp] theorem State.setPll_ms0 (s : State) (p : PllId) (r : PllRecord) :
    (s.setPll p r).ms0 = s.ms0 := rfl

@[simp] theorem State.setPll_ms1 (s : State) (p : PllId) (r : PllRecord) :
    (s.setPll p r).ms1 = s.ms1 := rfl

@[simp] theorem State.setPll_ms2 (s : State) (p : PllId) (r : PllRecord) :
    (s.setPll p r).ms2 = s.ms2 := rfl

@[simp] theorem State.setPll_pc (s : State) (p : PllId) (r : PllRecord) :
    (s.setPll p r).pc = s.pc := rfl

@[simp] theorem State.setPll_committed (s : State) (p : PllId) (r : PllRecord) :
    (s.setPll p r).committed = s.committed := rfl

@[simp] theorem State.setPll_trace (s : State) (p : PllId) (r : PllRecord) :
    (s.setPll p r).trace = s.trace := rfl

@[simp] theorem State.setPll_port (s : State) (p : PllId) (r : PllRecord) :
    (s.setPll p r).port = s.port := rfl

@[simp] theorem State.setPll_result (s : State) (p : PllId) (r : PllRecord) :
    (s.setPll p r).result = s.result := rfl

@[simp] theorem State.setPll_pinInput (s : State) (p : PllId) (r : PllRecord) :
    (s.setPll p r).pinInput = s.pinInput := rfl

@[simp] theorem State.setPll_pinReads (s : State) (p : PllId) (r : PllRecord) :
    (s.setPll p r).pinReads = s.pinReads := rfl

@[simp] theorem State.setPll_pinLevel (s : State) (p : PllId) (r : PllRecord) (k : Nat) :
    (s.setPll p r).pinLevel k = s.pinLevel k := rfl

/-! ### `State.setMs` -/

@[simp] theorem State.setMs_regs (s : State) (o : OutputId) (r : MsRecord) :
    (s.setMs o r).regs = s.regs := rfl

@[simp] theorem State.setMs_synthState (s : State) (o : OutputId) (r : MsRecord) :
    (s.setMs o r).synthState = s.synthState := rfl

@[simp] theorem State.setMs_xtal (s : State) (o : OutputId) (r : MsRecord) :
    (s.setMs o r).xtal = s.xtal := rfl

@[simp] theorem State.setMs_pllA (s : State) (o : OutputId) (r : MsRecord) :
    (s.setMs o r).pllA = s.pllA := rfl

@[simp] theorem State.setMs_pllB (s : State) (o : OutputId) (r : MsRecord) :
    (s.setMs o r).pllB = s.pllB := rfl

@[simp] theorem State.setMs_ms0 (s : State) (o : OutputId) (r : MsRecord) :
    (s.setMs o r).ms0 = if o = .out0 then some r else s.ms0 := rfl

@[simp] theorem State.setMs_ms1 (s : State) (o : OutputId) (r : MsRecord) :
    (s.setMs o r).ms1 = if o = .out1 then some r else s.ms1 := rfl

@[simp] theorem State.setMs_ms2 (s : State) (o : OutputId) (r : MsRecord) :
    (s.setMs o r).ms2 = if o = .out2 then some r else s.ms2 := rfl

@[simp] theorem State.setMs_pc (s : State) (o : OutputId) (r : MsRecord) :
    (s.setMs o r).pc = s.pc := rfl

@[simp] theorem State.setMs_committed (s : State) (o : OutputId) (r : MsRecord) :
    (s.setMs o r).committed = s.committed := rfl

@[simp] theorem State.setMs_trace (s : State) (o : OutputId) (r : MsRecord) :
    (s.setMs o r).trace = s.trace := rfl

@[simp] theorem State.setMs_port (s : State) (o : OutputId) (r : MsRecord) :
    (s.setMs o r).port = s.port := rfl

@[simp] theorem State.setMs_result (s : State) (o : OutputId) (r : MsRecord) :
    (s.setMs o r).result = s.result := rfl

@[simp] theorem State.setMs_pinInput (s : State) (o : OutputId) (r : MsRecord) :
    (s.setMs o r).pinInput = s.pinInput := rfl

@[simp] theorem State.setMs_pinReads (s : State) (o : OutputId) (r : MsRecord) :
    (s.setMs o r).pinReads = s.pinReads := rfl

@[simp] theorem State.setMs_pinLevel (s : State) (o : OutputId) (r : MsRecord) (k : Nat) :
    (s.setMs o r).pinLevel k = s.pinLevel k := rfl

/-! ### `State.clearRecords` -/

@[simp] theorem State.clearRecords_regs (s : State) :
    s.clearRecords.regs = s.regs := rfl

@[simp] theorem State.clearRecords_synthState (s : State) :
    s.clearRecords.synthState = s.synthState := rfl

@[simp] theorem State.clearRecords_xtal (s : State) :
    s.clearRecords.xtal = s.xtal := rfl

@[simp] theorem State.clearRecords_pllA (s : State) :
    s.clearRecords.pllA = none := rfl

@[simp] theorem State.clearRecords_pllB (s : State) :
    s.clearRecords.pllB = none := rfl

@[simp] theorem State.clearRecords_ms0 (s : State) :
    s.clearRecords.ms0 = none := rfl

@[simp] theorem State.clearRecords_ms1 (s : State) :
    s.clearRecords.ms1 = none := rfl

@[simp] theorem State.clearRecords_ms2 (s : State) :
    s.clearRecords.ms2 = none := rfl

@[simp] theorem State.clearRecords_pc (s : State) :
    s.clearRecords.pc = s.pc := rfl

@[simp] theorem State.clearRecords_committed (s : State) :
    s.clearRecords.committed = s.committed := rfl

@[simp] theorem State.clearRecords_trace (s : State) :
    s.clearRecords.trace = s.trace := rfl

@[simp] theorem State.clearRecords_port (s : State) :
    s.clearRecords.port = s.port := rfl

@[simp] theorem State.clearRecords_result (s : State) :
    s.clearRecords.result = s.result := rfl

@[simp] theorem State.clearRecords_pinInput (s : State) :
    s.clearRecords.pinInput = s.pinInput := rfl

@[simp] theorem State.clearRecords_pinReads (s : State) :
    s.clearRecords.pinReads = s.pinReads := rfl

@[simp] theorem State.clearRecords_pinLevel (s : State) (k : Nat) :
    s.clearRecords.pinLevel k = s.pinLevel k := rfl

/-! ### `State.setPc` -/

@[simp] theorem State.setPc_regs (s : State) (target : Pc) :
    (s.setPc target).regs = s.regs := rfl

@[simp] theorem State.setPc_synthState (s : State) (target : Pc) :
    (s.setPc target).synthState = s.synthState := rfl

@[simp] theorem State.setPc_xtal (s : State) (target : Pc) :
    (s.setPc target).xtal = s.xtal := rfl

@[simp] theorem State.setPc_pllA (s : State) (target : Pc) :
    (s.setPc target).pllA = s.pllA := rfl

@[simp] theorem State.setPc_pllB (s : State) (target : Pc) :
    (s.setPc target).pllB = s.pllB := rfl

@[simp] theorem State.setPc_ms0 (s : State) (target : Pc) :
    (s.setPc target).ms0 = s.ms0 := rfl

@[simp] theorem State.setPc_ms1 (s : State) (target : Pc) :
    (s.setPc target).ms1 = s.ms1 := rfl

@[simp] theorem State.setPc_ms2 (s : State) (target : Pc) :
    (s.setPc target).ms2 = s.ms2 := rfl

@[simp] theorem State.setPc_pc (s : State) (target : Pc) :
    (s.setPc target).pc = target := rfl

@[simp] theorem State.setPc_committed (s : State) (target : Pc) :
    (s.setPc target).committed = s.committed := rfl

@[simp] theorem State.setPc_trace (s : State) (target : Pc) :
    (s.setPc target).trace = s.trace := rfl

@[simp] theorem State.setPc_port (s : State) (target : Pc) :
    (s.setPc target).port = s.port := rfl

@[simp] theorem State.setPc_result (s : State) (target : Pc) :
    (s.setPc target).result = s.result := rfl

@[simp] theorem State.setPc_pinInput (s : State) (target : Pc) :
    (s.setPc target).pinInput = s.pinInput := rfl

@[simp] theorem State.setPc_pinReads (s : State) (target : Pc) :
    (s.setPc target).pinReads = s.pinReads := rfl

@[simp] theorem State.setPc_pinLevel (s : State) (target : Pc) (k : Nat) :
    (s.setPc target).pinLevel k = s.pinLevel k := rfl

/-! ### `State.commit` -/

@[simp] theorem State.commit_regs (s : State) (level : Bool) :
    (s.commit level).regs = s.regs := rfl

@[simp] theorem State.commit_synthState (s : State) (level : Bool) :
    (s.commit level).synthState = s.synthState := rfl

@[simp] theorem State.commit_xtal (s : State) (level : Bool) :
    (s.commit level).xtal = s.xtal := rfl

@[simp] theorem State.commit_pllA (s : State) (level : Bool) :
    (s.commit level).pllA = s.pllA := rfl

@[simp] theorem State.commit_pllB (s : State) (level : Bool) :
    (s.commit level).pllB = s.pllB := rfl

@[simp] theorem State.commit_ms0 (s : State) (level : Bool) :
    (s.commit level).ms0 = s.ms0 := rfl

@[simp] theorem State.commit_ms1 (s : State) (level : Bool) :
    (s.commit level).ms1 = s.ms1 := rfl

@[simp] theorem State.commit_ms2 (s : State) (level : Bool) :
    (s.commit level).ms2 = s.ms2 := rfl

@[simp] theorem State.commit_pc (s : State) (level : Bool) :
    (s.commit level).pc = s.pc := rfl

@[simp] theorem State.commit_committed (s : State) (level : Bool) :
    (s.commit level).committed = some level := rfl

@[simp] theorem State.commit_trace (s : State) (level : Bool) :
    (s.commit level).trace = s.trace := rfl

@[simp] theorem State.commit_port (s : State) (level : Bool) :
    (s.commit level).port = s.port := rfl

@[simp] theorem State.commit_result (s : State) (level : Bool) :
    (s.commit level).result = s.result := rfl

@[simp] theorem State.commit_pinInput (s : State) (level : Bool) :
    (s.commit level).pinInput = s.pinInput := rfl

@[simp] theorem State.commit_pinReads (s : State) (level : Bool) :
    (s.commit level).pinReads = s.pinReads := rfl

@[simp] theorem State.commit_pinLevel (s : State) (level : Bool) (k : Nat) :
    (s.commit level).pinLevel k = s.pinLevel k := rfl

/-! ### `State.returns` -/

@[simp] theorem State.returns_regs (s : State) (r : OpResult) :
    (s.returns r).regs = s.regs := rfl

@[simp] theorem State.returns_synthState (s : State) (r : OpResult) :
    (s.returns r).synthState = s.synthState := rfl

@[simp] theorem State.returns_xtal (s : State) (r : OpResult) :
    (s.returns r).xtal = s.xtal := rfl

@[simp] theorem State.returns_pllA (s : State) (r : OpResult) :
    (s.returns r).pllA = s.pllA := rfl

@[simp] theorem State.returns_pllB (s : State) (r : OpResult) :
    (s.returns r).pllB = s.pllB := rfl

@[simp] theorem State.returns_ms0 (s : State) (r : OpResult) :
    (s.returns r).ms0 = s.ms0 := rfl

@[simp] theorem State.returns_ms1 (s : State) (r : OpResult) :
    (s.returns r).ms1 = s.ms1 := rfl

@[simp] theorem State.returns_ms2 (s : State) (r : OpResult) :
    (s.returns r).ms2 = s.ms2 := rfl

@[simp] theorem State.returns_pc (s : State) (r : OpResult) :
    (s.returns r).pc = s.pc := rfl

@[simp] theorem State.returns_committed (s : State) (r : OpResult) :
    (s.returns r).committed = s.committed := rfl

@[simp] theorem State.returns_trace (s : State) (r : OpResult) :
    (s.returns r).trace = s.trace := rfl

@[simp] theorem State.returns_port (s : State) (r : OpResult) :
    (s.returns r).port = s.port := rfl

@[simp] theorem State.returns_result (s : State) (r : OpResult) :
    (s.returns r).result = r := rfl

@[simp] theorem State.returns_pinInput (s : State) (r : OpResult) :
    (s.returns r).pinInput = s.pinInput := rfl

@[simp] theorem State.returns_pinReads (s : State) (r : OpResult) :
    (s.returns r).pinReads = s.pinReads := rfl

@[simp] theorem State.returns_pinLevel (s : State) (r : OpResult) (k : Nat) :
    (s.returns r).pinLevel k = s.pinLevel k := rfl

/-! ### `State.setPort` -/

@[simp] theorem State.setPort_regs (s : State) (p : List CmdWord) :
    (s.setPort p).regs = s.regs := rfl

@[simp] theorem State.setPort_synthState (s : State) (p : List CmdWord) :
    (s.setPort p).synthState = s.synthState := rfl

@[simp] theorem State.setPort_xtal (s : State) (p : List CmdWord) :
    (s.setPort p).xtal = s.xtal := rfl

@[simp] theorem State.setPort_pllA (s : State) (p : List CmdWord) :
    (s.setPort p).pllA = s.pllA := rfl

@[simp] theorem State.setPort_pllB (s : State) (p : List CmdWord) :
    (s.setPort p).pllB = s.pllB := rfl

@[simp] theorem State.setPort_ms0 (s : State) (p : List CmdWord) :
    (s.setPort p).ms0 = s.ms0 := rfl

@[simp] theorem State.setPort_ms1 (s : State) (p : List CmdWord) :
    (s.setPort p).ms1 = s.ms1 := rfl

@[simp] theorem State.setPort_ms2 (s : State) (p : List CmdWord) :
    (s.setPort p).ms2 = s.ms2 := rfl

@[simp] theorem State.setPort_pc (s : State) (p : List CmdWord) :
    (s.setPort p).pc = s.pc := rfl

@[simp] theorem State.setPort_committed (s : State) (p : List CmdWord) :
    (s.setPort p).committed = s.committed := rfl

@[simp] theorem State.setPort_trace (s : State) (p : List CmdWord) :
    (s.setPort p).trace = s.trace := rfl

@[simp] theorem State.setPort_port (s : State) (p : List CmdWord) :
    (s.setPort p).port = p := rfl

@[simp] theorem State.setPort_result (s : State) (p : List CmdWord) :
    (s.setPort p).result = s.result := rfl

@[simp] theorem State.setPort_pinInput (s : State) (p : List CmdWord) :
    (s.setPort p).pinInput = s.pinInput := rfl

@[simp] theorem State.setPort_pinReads (s : State) (p : List CmdWord) :
    (s.setPort p).pinReads = s.pinReads := rfl

@[simp] theorem State.setPort_pinLevel (s : State) (p : List CmdWord) (k : Nat) :
    (s.setPort p).pinLevel k = s.pinLevel k := rfl

/-! ### `State.drawPin` -/

@[simp] theorem State.drawPin_regs (s : State) :
    s.drawPin.regs = s.regs := rfl

@[simp] theorem State.drawPin_synthState (s : State) :
    s.drawPin.synthState = s.synthState := rfl

@[simp] theorem State.drawPin_xtal (s : State) :
    s.drawPin.xtal = s.xtal := rfl

@[simp] theorem State.drawPin_pllA (s : State) :
    s.drawPin.pllA = s.pllA := rfl

@[simp] theorem State.drawPin_pllB (s : State) :
    s.drawPin.pllB = s.pllB := rfl

@[simp] theorem State.drawPin_ms0 (s : State) :
    s.drawPin.ms0 = s.ms0 := rfl

@[simp] theorem State.drawPin_ms1 (s : State) :
    s.drawPin.ms1 = s.ms1 := rfl

@[simp] theorem State.drawPin_ms2 (s : State) :
    s.drawPin.ms2 = s.ms2 := rfl

@[simp] theorem State.drawPin_pc (s : State) :
    s.drawPin.pc = s.pc := rfl

@[simp] theorem State.drawPin_committed (s : State) :
    s.drawPin.committed = s.committed := rfl

@[simp] theorem State.drawPin_trace (s : State) :
    s.drawPin.trace = s.trace := rfl

@[simp] theorem State.drawPin_port (s : State) :
    s.drawPin.port = s.port := rfl

@[simp] theorem State.drawPin_result (s : State) :
    s.drawPin.result = s.result := rfl

@[simp] theorem State.drawPin_pinInput (s : State) :
    s.drawPin.pinInput = s.pinInput.tail := rfl

@[simp] theorem State.drawPin_pinReads (s : State) :
    s.drawPin.pinReads = s.pinReads + 1 := rfl

/-! ### `State.writeReg` -/

@[simp] theorem State.writeReg_regs (s : State) (addr val : Byte) :
    (s.writeReg addr val).regs = Memory.write s.regs addr.toNat val := rfl

@[simp] theorem State.writeReg_synthState (s : State) (addr val : Byte) :
    (s.writeReg addr val).synthState = s.synthState := rfl

@[simp] theorem State.writeReg_xtal (s : State) (addr val : Byte) :
    (s.writeReg addr val).xtal = s.xtal := rfl

@[simp] theorem State.writeReg_pllA (s : State) (addr val : Byte) :
    (s.writeReg addr val).pllA = s.pllA := rfl

@[simp] theorem State.writeReg_pllB (s : State) (addr val : Byte) :
    (s.writeReg addr val).pllB = s.pllB := rfl

@[simp] theorem State.writeReg_ms0 (s : State) (addr val : Byte) :
    (s.writeReg addr val).ms0 = s.ms0 := rfl

@[simp] theorem State.writeReg_ms1 (s : State) (addr val : Byte) :
    (s.writeReg addr val).ms1 = s.ms1 := rfl

@[simp] theorem State.writeReg_ms2 (s : State) (addr val : Byte) :
    (s.writeReg addr val).ms2 = s.ms2 := rfl

@[simp] theorem State.writeReg_pc (s : State) (addr val : Byte) :
    (s.writeReg addr val).pc = s.pc := rfl

@[simp] theorem State.writeReg_committed (s : State) (addr val : Byte) :
    (s.writeReg addr val).committed = s.committed := rfl

@[simp] theorem State.writeReg_trace (s : State) (addr val : Byte) :
    (s.writeReg addr val).trace = s.trace ++ [.regWrite addr val] := rfl

@[simp] theorem State.writeReg_port (s : State) (addr val : Byte) :
    (s.writeReg addr val).port = s.port := rfl

@[simp] theorem State.writeReg_result (s : State) (addr val : Byte) :
    (s.writeReg addr val).result = s.result := rfl

@[simp] theorem State.writeReg_pinInput (s : State) (addr val : Byte) :
    (s.writeReg addr val).pinInput = s.pinInput := rfl

@[simp] theorem State.writeReg_pinReads (s : State) (addr val : Byte) :
    (s.writeReg addr val).pinReads = s.pinReads := rfl

@[simp] theorem State.writeReg_pinLevel (s : State) (addr val : Byte) (k : Nat) :
    (s.writeReg addr val).pinLevel k = s.pinLevel k := rfl

/-! ### `State.readPin` -/

@[simp] theorem State.readPin_regs (s : State) :
    s.readPin.regs = s.regs := rfl

@[simp] theorem State.readPin_synthState (s : State) :
    s.readPin.synthState = s.synthState := rfl

@[simp] theorem State.readPin_xtal (s : State) :
    s.readPin.xtal = s.xtal := rfl

@[simp] theorem State.readPin_pllA (s : State) :
    s.readPin.pllA = s.pllA := rfl

@[simp] theorem State.readPin_pllB (s : State) :
    s.readPin.pllB = s.pllB := rfl

@[simp] theorem State.readPin_ms0 (s : State) :
    s.readPin.ms0 = s.ms0 := rfl

@[simp] theorem State.readPin_ms1 (s : State) :
    s.readPin.ms1 = s.ms1 := rfl

@[simp] theorem State.readPin_ms2 (s : State) :
    s.readPin.ms2 = s.ms2 := rfl

@[simp] theorem State.readPin_pc (s : State) :
    s.readPin.pc = s.pc := rfl

@[simp] theorem State.readPin_committed (s : State) :
    s.readPin.committed = s.committed := rfl

@[simp] theorem State.readPin_trace (s : State) :
    s.readPin.trace = s.trace ++ [.pinRead (s.pinLevel 0)] := rfl

@[simp] theorem State.readPin_port (s : State) :
    s.readPin.port = s.port := rfl

@[simp] theorem State.readPin_result (s : State) :
    s.readPin.result = s.result := rfl

@[simp] theorem State.readPin_pinInput (s : State) :
    s.readPin.pinInput = s.pinInput.tail := rfl

@[simp] theorem State.readPin_pinReads (s : State) :
    s.readPin.pinReads = s.pinReads + 1 := rfl

/-! ### `State.configurePin` -/

@[simp] theorem State.configurePin_regs (s : State) :
    s.configurePin.regs = s.regs := rfl

@[simp] theorem State.configurePin_synthState (s : State) :
    s.configurePin.synthState = s.synthState := rfl

@[simp] theorem State.configurePin_xtal (s : State) :
    s.configurePin.xtal = s.xtal := rfl

@[simp] theorem State.configurePin_pllA (s : State) :
    s.configurePin.pllA = s.pllA := rfl

@[simp] theorem State.configurePin_pllB (s : State) :
    s.configurePin.pllB = s.pllB := rfl

@[simp] theorem State.configurePin_ms0 (s : State) :
    s.configurePin.ms0 = s.ms0 := rfl

@[simp] theorem State.configurePin_ms1 (s : State) :
    s.configurePin.ms1 = s.ms1 := rfl

@[simp] theorem State.configurePin_ms2 (s : State) :
    s.configurePin.ms2 = s.ms2 := rfl

@[simp] theorem State.configurePin_pc (s : State) :
    s.configurePin.pc = s.pc := rfl

@[simp] theorem State.configurePin_committed (s : State) :
    s.configurePin.committed = s.committed := rfl

@[simp] theorem State.configurePin_trace (s : State) :
    s.configurePin.trace = s.trace ++ [.pinConfig Config.swPin Config.swMode] := rfl

@[simp] theorem State.configurePin_port (s : State) :
    s.configurePin.port = s.port := rfl

@[simp] theorem State.configurePin_result (s : State) :
    s.configurePin.result = s.result := rfl

@[simp] theorem State.configurePin_pinInput (s : State) :
    s.configurePin.pinInput = s.pinInput := rfl

@[simp] theorem State.configurePin_pinReads (s : State) :
    s.configurePin.pinReads = s.pinReads := rfl

@[simp] theorem State.configurePin_pinLevel (s : State) (k : Nat) :
    s.configurePin.pinLevel k = s.pinLevel k := rfl

/-! ### `State.delay` -/

@[simp] theorem State.delay_regs (s : State) :
    s.delay.regs = s.regs := rfl

@[simp] theorem State.delay_synthState (s : State) :
    s.delay.synthState = s.synthState := rfl

@[simp] theorem State.delay_xtal (s : State) :
    s.delay.xtal = s.xtal := rfl

@[simp] theorem State.delay_pllA (s : State) :
    s.delay.pllA = s.pllA := rfl

@[simp] theorem State.delay_pllB (s : State) :
    s.delay.pllB = s.pllB := rfl

@[simp] theorem State.delay_ms0 (s : State) :
    s.delay.ms0 = s.ms0 := rfl

@[simp] theorem State.delay_ms1 (s : State) :
    s.delay.ms1 = s.ms1 := rfl

@[simp] theorem State.delay_ms2 (s : State) :
    s.delay.ms2 = s.ms2 := rfl

@[simp] theorem State.delay_pc (s : State) :
    s.delay.pc = s.pc := rfl

@[simp] theorem State.delay_committed (s : State) :
    s.delay.committed = s.committed := rfl

@[simp] theorem State.delay_trace (s : State) :
    s.delay.trace = s.trace ++ [.delay Config.settleMs] := rfl

@[simp] theorem State.delay_port (s : State) :
    s.delay.port = s.port := rfl

@[simp] theorem State.delay_result (s : State) :
    s.delay.result = s.result := rfl

@[simp] theorem State.delay_pinInput (s : State) :
    s.delay.pinInput = s.pinInput := rfl

@[simp] theorem State.delay_pinReads (s : State) :
    s.delay.pinReads = s.pinReads := rfl

@[simp] theorem State.delay_pinLevel (s : State) (k : Nat) :
    s.delay.pinLevel k = s.pinLevel k := rfl

end Sys2Proof.Machine
end

