-- ==== Sys2Proof/Laws/Ops.lean ====
section
/-!
SUPPORT. What each shared operation does, said once: the image as memory, sequencing of outcomes, and the writes an
operation adds to the trace and records in the image.
-/

namespace Sys2Proof.Machine

open Sys2Proof.Safety

/-! ### The image -/

@[simp] theorem Memory.read_nil (a : Nat) : Memory.read [] a = none := rfl

/-- A write is read back at its address and seen nowhere else. -/
theorem Memory.read_write (m : Memory) (a b : Nat) (v : Byte) :
    Memory.read (Memory.write m a v) b = if b = a then some v else Memory.read m b := by
  induction m with
  | nil => simp [Memory.write, Memory.read]
  | cons c m ih =>
    obtain ⟨c, w⟩ := c
    simp only [Memory.write]
    split
    · simp [Memory.read]
    · split
      · subst_vars
        by_cases h : b = c <;> simp [Memory.read, h]
      · simp only [Memory.read, ih]
        grind

/-- Every address of a written image is the new one or an old one. -/
theorem Memory.mem_write {m : Memory} {a : Nat} {v : Byte} {c : Host.Cell} (h : c ∈ Memory.write m a v) :
    c.1 = a ∨ c ∈ m := by
  induction m with
  | nil => simp_all [Memory.write]
  | cons d m ih =>
    simp only [Memory.write] at h
    split at h
    · grind
    · split at h <;> grind

/-- A write keeps the canonical form. -/
theorem Memory.wf_write {m : Memory} {a : Nat} {v : Byte} (hm : Memory.wf m = true) (ha : a < 256) :
    Memory.wf (Memory.write m a v) = true := by
  induction m with
  | nil => simpa [Memory.write, Memory.wf] using ha
  | cons c m ih =>
    obtain ⟨c, w⟩ := c
    simp only [Memory.wf, Bool.and_eq_true, decide_eq_true_eq, List.all_eq_true] at hm
    obtain ⟨⟨hc, hall⟩, hwf⟩ := hm
    simp only [Memory.write]
    split
    · simp only [Memory.wf, Bool.and_eq_true, decide_eq_true_eq, List.all_eq_true, List.mem_cons]
      grind
    · split
      · simp only [Memory.wf, Bool.and_eq_true, decide_eq_true_eq, List.all_eq_true]
        grind
      · simp only [Memory.wf, Bool.and_eq_true, decide_eq_true_eq, List.all_eq_true]
        refine ⟨⟨hc, fun d hd => ?_⟩, ih hwf⟩
        rcases Memory.mem_write hd with h | h
        · omega
        · exact hall d h

/-! ### Outcomes in sequence -/

@[simp] theorem andThen_next (s : State) (k : State → Out) : andThen (.next s) k = k s := rfl

@[simp] theorem andThen_fault (r : Fault) (k : State → Out) : andThen (.fault r) k = .fault r := rfl

@[simp] theorem andThen_refused (r : Refusal) (k : State → Out) : andThen (.refused r) k = .refused r := rfl

/-- A sequence answers a next state exactly when both its parts do. -/
theorem andThen_eq_next {o : Out} {k : State → Out} {t : State} :
    andThen o k = .next t ↔ ∃ s, o = .next s ∧ k s = .next t := by
  cases o <;> simp [andThen]

/-- The outcome of an operation that encodes a triple first. -/
theorem withTriple_eq_next {r : Except RangeError Triple} {s : State} {k : Triple → Out} {t : State} :
    withTriple r s k = .next t ↔ ∃ x, r = .ok x ∧ k x = .next t := by
  cases r <;> simp [withTriple, raise]

/-! ### The test port and the pin -/

theorem fetch_nil {s : State} (h : s.port = []) : fetch s = none := by
  simp [fetch, h]

theorem fetch_cons {s : State} {w : CmdWord} {rest : List CmdWord} (h : s.port = w :: rest) :
    fetch s = some (w, s.setPort rest) := by
  simp [fetch, h]

@[simp] theorem State.drawPin_pinLevel (s : State) (k : Nat) : s.drawPin.pinLevel k = s.pinLevel (k + 1) := by
  cases h : s.pinInput <;> simp [State.pinLevel, h, Nat.add_assoc, Nat.add_comm 1]

@[simp] theorem State.readPin_pinLevel (s : State) (k : Nat) : s.readPin.pinLevel k = s.pinLevel (k + 1) := by
  simp [State.readPin]

/-! ### Events and their record -/

@[simp] theorem lastWrite_nil (a : Nat) : lastWrite [] a = none := rfl

/-- Later events overwrite earlier ones. -/
theorem lastWrite_append (es fs : List Event) (a : Nat) :
    lastWrite (es ++ fs) a = (lastWrite fs a).or (lastWrite es a) := by
  induction es with
  | nil => simp
  | cons e es ih => cases e <;> simp [lastWrite, ih, Option.or_assoc]

@[simp] theorem writesOf_append (es fs : List Event) : writesOf (es ++ fs) = writesOf es ++ writesOf fs := by
  induction es with
  | nil => rfl
  | cons e es ih => cases e <;> simp [writesOf, ih]

/-- `t` is reached from `s` by these events: the trace has grown by them and the image records them. -/
structure Grew (s t : State) (es : List Event) : Prop where
  trace : t.trace = s.trace ++ es
  regs : Recorded s.regs t.regs es

theorem Grew.refl (s : State) : Grew s s [] where
  trace := by simp
  regs := fun a => by simp

theorem Grew.trans {s t u : State} {es fs : List Event} (h : Grew s t es) (k : Grew t u fs) : Grew s u (es ++ fs) where
  trace := by rw [k.trace, h.trace, List.append_assoc]
  regs := fun a => by rw [k.regs a, h.regs a, lastWrite_append, Option.or_assoc]

/-- States that agree on trace and image grow alike. -/
theorem Grew.congr {s t s' t' : State} {es : List Event} (h : Grew s t es) (hs : s'.trace = s.trace)
    (hs' : s'.regs = s.regs) (ht : t'.trace = t.trace) (ht' : t'.regs = t.regs) : Grew s' t' es where
  trace := by rw [ht, hs, h.trace]
  regs := by rw [hs', ht']; exact h.regs

/-- What an operation returns is neither an event nor a register. -/
theorem Grew.returns {s t : State} {es : List Event} (h : Grew s t es) (r : OpResult) : Grew s (t.returns r) es :=
  ⟨h.trace, h.regs⟩

/-- One register write: one event, recorded. -/
theorem Grew.writeReg (s : State) (a v : Byte) : Grew s (s.writeReg a v) [.regWrite a v] where
  trace := rfl
  regs := fun b => by
    simp only [State.writeReg_regs, Memory.read_write, lastWrite, Option.none_or]
    by_cases h : b = a.toNat
    · simp [h]
    · simp [h, Ne.symm h]

/-- Eight register writes, recorded. -/
theorem Grew.writeBlock (s : State) (base : Byte) (b : Block) :
    Grew s (s.writeBlock base b) (blockEvents base b) := by
  have h := fun (s : State) (a v : Byte) => Grew.writeReg s a v
  have all := (((((((h s base b.b0).trans (h _ (base + 1) b.b1)).trans (h _ (base + 2) b.b2)).trans
    (h _ (base + 3) b.b3)).trans (h _ (base + 4) b.b4)).trans (h _ (base + 5) b.b5)).trans
    (h _ (base + 6) b.b6)).trans (h _ (base + 7) b.b7)
  have e : ∀ k : Byte, base + k + 1 = base + (k + 1) := fun k => BitVec.add_assoc _ _ _
  simp only [State.writeBlock, Block.toList, State.writeBytes, e]
  exact all

/-- The last write of a divider block that does not wrap: its own byte at each of its eight addresses. -/
theorem lastWrite_blockEvents (base : Byte) (b : Block) (h : base.toNat + 8 ≤ 256) (a : Nat) :
    lastWrite (blockEvents base b) a =
      if base.toNat ≤ a ∧ a < base.toNat + 8 then b.toList[a - base.toNat]? else none := by
  by_cases inside : base.toNat ≤ a ∧ a < base.toNat + 8
  · rw [if_pos inside]
    simp only [blockEvents, lastWrite, BitVec.toNat_add]
    obtain ⟨k, rfl⟩ := Nat.exists_eq_add_of_le inside.1
    have : k < 8 := by omega
    rcases k with _ | _ | _ | _ | _ | _ | _ | _ | k <;> simp [Block.toList] <;> try omega
    all_goals (repeat rw [if_neg (by omega)])
    all_goals simp
  · rw [if_neg inside]
    simp only [blockEvents, lastWrite, BitVec.toNat_add]
    simp
    omega

/-- A block write touches only the trace and the image. -/
theorem State.writeBlock_frame (s : State) (base : Byte) (b : Block) :
    s.writeBlock base b = { s with trace := s.trace ++ blockEvents base b, regs := (s.writeBlock base b).regs } := by
  rw [← (Grew.writeBlock s base b).trace]
  rfl

end Sys2Proof.Machine
end

