-- ==== Sys2Proof/Laws/Duties.lean ====
section
/-!
SUPPORT. The ordering duties of Safety.lean on writes that go on after a write to register 3: each is met by the whole
when it is met by both parts.
-/

namespace Sys2Proof.Safety

/-- R162: INIT's writes stay first. -/
theorem InitFirst.append {ws : List (Byte × Byte)} (h : InitFirst ws = true) (ne : ws ≠ []) (later : List (Byte × Byte)) :
    InitFirst (ws ++ later) = true := by
  unfold InitFirst at h ⊢
  have e : ws.isEmpty = false := by simpa using ne
  rw [e, Bool.false_or, beq_iff_eq] at h
  have len : 5 ≤ ws.length := by
    have := congrArg List.length h
    simp at this
    omega
  rw [Bool.or_eq_true, List.take_append_of_le_length len, h]
  simp

/-- R164: a write to register 3 owes no reset. -/
theorem ResetAfterBlock.append {prev v : Byte} {ws later : List (Byte × Byte)} (h : ResetAfterBlock prev ws = true)
    (last : ws.getLast? = some (3, v)) (k : ResetAfterBlock 3 later = true) :
    ResetAfterBlock prev (ws ++ later) = true := by
  induction ws generalizing prev with
  | nil => simp at last
  | cons w ws ih =>
    simp only [List.cons_append, ResetAfterBlock, Bool.and_eq_true] at h ⊢
    refine ⟨h.1, ?_⟩
    cases ws with
    | nil => simp at last; subst last; exact k
    | cons x xs => exact ih h.2 (by simpa using last)

/-- R169: a write to register 3 owes no control register. -/
theorem ControlAfterBlock.append {prev v : Byte} {ws later : List (Byte × Byte)}
    (h : ControlAfterBlock prev ws = true) (last : ws.getLast? = some (3, v)) (k : ControlAfterBlock 3 later = true) :
    ControlAfterBlock prev (ws ++ later) = true := by
  induction ws generalizing prev with
  | nil => simp at last
  | cons w ws ih =>
    simp only [List.cons_append, ControlAfterBlock, Bool.and_eq_true] at h ⊢
    refine ⟨h.1, ?_⟩
    cases ws with
    | nil => simp at last; subst last; exact k
    | cons x xs => exact ih h.2 (by simpa using last)

/-- R163: after a `3:00` the mask stands at `00`. -/
theorem OutputsOffAround.append {mask : Option Byte} {ws later : List (Byte × Byte)}
    (h : OutputsOffAround mask ws = true) (last : ws.getLast? = some (3, 0x00))
    (k : OutputsOffAround (some 0x00) later = true) : OutputsOffAround mask (ws ++ later) = true := by
  induction ws generalizing mask with
  | nil => simp at last
  | cons w ws ih =>
    cases ws with
    | nil => simp at last; subst last; simpa [OutputsOffAround] using k
    | cons x xs =>
      rw [List.cons_append]
      unfold OutputsOffAround at h ⊢
      split
      · rename_i e; rw [if_pos e] at h; exact ih h (by simpa using last)
      · rename_i e; rw [if_neg e] at h; rw [Bool.and_eq_true] at h ⊢; exact ⟨h.1, ih h.2 (by simpa using last)⟩

/-- R165: a `3:00` that meets the duty stands after both resets. -/
theorem PllsBeforeOutputs.append {a b : Bool} {ws later : List (Byte × Byte)} (h : PllsBeforeOutputs a b ws = true)
    (last : ws.getLast? = some (3, 0x00)) (k : PllsBeforeOutputs true true later = true) :
    PllsBeforeOutputs a b (ws ++ later) = true := by
  induction ws generalizing a b with
  | nil => simp at last
  | cons w ws ih =>
    cases ws with
    | nil =>
      simp at last
      subst last
      simp only [PllsBeforeOutputs, List.cons_append, List.nil_append] at h ⊢
      simp at h
      simp [h, k]
    | cons x xs =>
      rw [List.cons_append]
      unfold PllsBeforeOutputs at h ⊢
      rw [Bool.and_eq_true] at h ⊢
      exact ⟨h.1, ih h.2 (by simpa using last)⟩

theorem OnlyWired_append (ws later : List (Byte × Byte)) :
    OnlyWired (ws ++ later) = (OnlyWired ws && OnlyWired later) := by
  simp [OnlyWired]

end Sys2Proof.Safety
end

