-- ==== Sys2Proof/Laws/Encoder.lean ====
section
/-!
SUPPORT. The branches of the Divider Encoder (spec/40_divider_encoder.md R70, R71), one lemma each, and the range check
of the variant (R142).
-/

namespace Sys2Proof.Machine

theorem isInt_eq_true {num : U32} : isInt num = true ↔ num = 0 := by
  unfold isInt; exact beq_iff_eq

theorem isInt_eq_false {num : U32} : isInt num = false ↔ num ≠ 0 := by
  rw [← Bool.not_eq_true, isInt_eq_true]

theorem isUnit_eq_true {denom : U32} : isUnit denom = true ↔ denom = 1 := by
  unfold isUnit; exact beq_iff_eq

theorem isUnit_eq_false {denom : U32} : isUnit denom = false ↔ denom ≠ 1 := by
  rw [← Bool.not_eq_true, isUnit_eq_true]

theorem encodePllZ_integer (mode : Config.FracMode) (mult : Byte) (denom : U32) :
    encodePllZ mode mult 0 denom = integerPath mult.toNat denom.toNat := rfl

theorem encodePllZ_fractional (mode : Config.FracMode) (mult : Byte) {num : U32} (denom : U32) (h : num ≠ 0) :
    encodePllZ mode mult num denom =
      fractionalPath mult.toNat num.toNat denom.toNat (frac mode num.toNat denom.toNat) := by
  simp only [encodePllZ, isInt_eq_false.2 h, Bool.false_eq_true, if_false]

theorem encodeMsZ_integer (mode : Config.FracMode) (div denom : U32) :
    encodeMsZ mode div 0 denom = integerPath div.toNat denom.toNat := rfl

theorem encodeMsZ_simplified (mode : Config.FracMode) (div : U32) {num : U32} (h : num ≠ 0) :
    encodeMsZ mode div num 1 = simplifiedPath div.toNat num.toNat := by
  simp only [encodeMsZ, isInt_eq_false.2 h, isUnit_eq_true.2, Bool.false_eq_true, if_false, if_true]

theorem encodeMsZ_general (mode : Config.FracMode) (div : U32) {num denom : U32} (h : num ≠ 0) (hd : denom ≠ 1) :
    encodeMsZ mode div num denom =
      fractionalPath div.toNat num.toNat denom.toNat (frac mode num.toNat denom.toNat) := by
  simp only [encodeMsZ, isInt_eq_false.2 h, isUnit_eq_false.2 hd, Bool.false_eq_true, if_false]

/-- What the range check of the variant answers (R142). -/
theorem withTriple_checkRange_on (mode : Config.FracMode) (e : RangeError) (z : TripleZ) (s : State)
    (k : Triple → Out) :
    withTriple (checkRange ⟨mode, .on⟩ e z) s k =
      if z.inRange = true ∧ e.denom ≠ 0 then k z.trunc else .fault (.rangeError e s) := by
  by_cases h : z.inRange = true ∧ e.denom ≠ 0
  · have hb : (z.inRange && !(e.denom == 0)) = true := by simpa using h
    simp only [checkRange, hb, if_true, if_pos h, withTriple]
  · have hb : (z.inRange && !(e.denom == 0)) = false := by simpa using h
    simp only [checkRange, hb, Bool.false_eq_true, if_false, if_neg h, withTriple, raise]

@[simp] theorem ofInt_toNat (x : U32) : BitVec.ofInt 32 (x.toNat : Int) = x := by
  rw [BitVec.ofInt_natCast, BitVec.ofNat_toNat, BitVec.setWidth_eq]

theorem integerPath_trunc (a : Nat) (denom : U32) :
    (integerPath a denom.toNat).trunc = { p1 := BitVec.ofInt 32 (128 * a - 512), p2 := 0, p3 := denom } := by
  simp only [integerPath, TripleZ.trunc, ofInt_toNat]; rfl

theorem simplifiedPath_trunc (a num : Nat) :
    (simplifiedPath a num).trunc =
      { p1 := BitVec.ofInt 32 (128 * a + 128 * num - 512), p2 := BitVec.ofInt 32 (128 * num - 128), p3 := 1 } := rfl

theorem fractionalPath_trunc (a num f : Nat) (denom : U32) :
    (fractionalPath a num denom.toNat f).trunc =
      { p1 := BitVec.ofInt 32 (128 * a + f - 512), p2 := BitVec.ofInt 32 (128 * num - denom.toNat * f),
        p3 := denom } := by
  simp only [fractionalPath, TripleZ.trunc, ofInt_toNat]

end Sys2Proof.Machine
end

