-- ==== Sys2Proof/Laws/Sequences.lean ====
section
/-!
SUPPORT. What each sequence of the Synthesizer Model and of the Mode Controller can do, said once: the writes it adds
(`Grew`) and the field of every record it leaves.
-/

namespace Sys2Proof.Machine

open Sys2Proof.Safety

/-! ### A divider block -/

@[simp] theorem State.writeBlock_synthState (s : State) (base : Byte) (b : Block) :
    (s.writeBlock base b).synthState = s.synthState := rfl

@[simp] theorem State.writeBlock_xtal (s : State) (base : Byte) (b : Block) :
    (s.writeBlock base b).xtal = s.xtal := rfl

@[simp] theorem State.writeBlock_pllA (s : State) (base : Byte) (b : Block) :
    (s.writeBlock base b).pllA = s.pllA := rfl

@[simp] theorem State.writeBlock_pllB (s : State) (base : Byte) (b : Block) :
    (s.writeBlock base b).pllB = s.pllB := rfl

@[simp] theorem State.writeBlock_ms0 (s : State) (base : Byte) (b : Block) :
    (s.writeBlock base b).ms0 = s.ms0 := rfl

@[simp] theorem State.writeBlock_ms1 (s : State) (base : Byte) (b : Block) :
    (s.writeBlock base b).ms1 = s.ms1 := rfl

@[simp] theorem State.writeBlock_ms2 (s : State) (base : Byte) (b : Block) :
    (s.writeBlock base b).ms2 = s.ms2 := rfl

@[simp] theorem State.writeBlock_pc (s : State) (base : Byte) (b : Block) :
    (s.writeBlock base b).pc = s.pc := rfl

@[simp] theorem State.writeBlock_committed (s : State) (base : Byte) (b : Block) :
    (s.writeBlock base b).committed = s.committed := rfl

@[simp] theorem State.writeBlock_port (s : State) (base : Byte) (b : Block) :
    (s.writeBlock base b).port = s.port := rfl

@[simp] theorem State.writeBlock_result (s : State) (base : Byte) (b : Block) :
    (s.writeBlock base b).result = s.result := rfl

@[simp] theorem State.writeBlock_pinInput (s : State) (base : Byte) (b : Block) :
    (s.writeBlock base b).pinInput = s.pinInput := rfl

@[simp] theorem State.writeBlock_pinReads (s : State) (base : Byte) (b : Block) :
    (s.writeBlock base b).pinReads = s.pinReads := rfl

@[simp] theorem State.writeBlock_pinLevel (s : State) (base : Byte) (b : Block) (k : Nat) :
    (s.writeBlock base b).pinLevel k = s.pinLevel k := rfl

@[simp] theorem State.writeBlock_trace (s : State) (base : Byte) (b : Block) :
    (s.writeBlock base b).trace = s.trace ++ blockEvents base b :=
  (Grew.writeBlock s base b).trace

/-! ### The encoder of the hardware specified -/

@[simp] theorem checkRange_specified (e : RangeError) (z : TripleZ) :
    checkRange Config.specified e z = .ok z.trunc := rfl

@[simp] theorem encodePll_specified (mult : Byte) (num denom : U32) :
    encodePll Config.specified mult num denom = .ok (encodePllZ .binary32 mult num denom).trunc := rfl

@[simp] theorem encodeMs_specified (div num denom : U32) :
    encodeMs Config.specified div num denom = .ok (encodeMsZ .binary32 div num denom).trunc := rfl

/-- R82's case of the hardware specified, as a condition on the operands. -/
theorem fracUndefined_specified (num denom : U32) :
    fracUndefined Config.specified num denom = true ↔ num ≠ 0 ∧ denom = 0 := by
  simp [fracUndefined, Config.specified, isInt]

theorem fracUndefined_eq_false {num denom : U32} (h : num ≠ 0 → denom ≠ 0) :
    fracUndefined Config.specified num denom = false := by
  rw [Bool.eq_false_iff, Ne, fracUndefined_specified]
  exact fun ⟨a, b⟩ => h a b

/-! ### INIT -/

theorem Grew.initSeq (load : CrystalLoad) (s : State) : Grew s (initSeq load s) (initEvents load) :=
  (((((Grew.writeReg s 3 0xFF).trans (.writeReg _ 16 0x80)).trans (.writeReg _ 17 0x80)).trans
    (.writeReg _ 18 0x80)).trans (.writeReg _ 183 (Config.xtalCode load))).congr rfl rfl rfl rfl

@[simp] theorem initSeq_synthState (load : CrystalLoad) (s : State) :
    (initSeq load s).synthState = .disabled := rfl

@[simp] theorem initSeq_xtal (load : CrystalLoad) (s : State) :
    (initSeq load s).xtal = some load := rfl

@[simp] theorem initSeq_pllA (load : CrystalLoad) (s : State) :
    (initSeq load s).pllA = none := rfl

@[simp] theorem initSeq_pllB (load : CrystalLoad) (s : State) :
    (initSeq load s).pllB = none := rfl

@[simp] theorem initSeq_ms0 (load : CrystalLoad) (s : State) :
    (initSeq load s).ms0 = none := rfl

@[simp] theorem initSeq_ms1 (load : CrystalLoad) (s : State) :
    (initSeq load s).ms1 = none := rfl

@[simp] theorem initSeq_ms2 (load : CrystalLoad) (s : State) :
    (initSeq load s).ms2 = none := rfl

@[simp] theorem initSeq_pc (load : CrystalLoad) (s : State) :
    (initSeq load s).pc = s.pc := rfl

@[simp] theorem initSeq_committed (load : CrystalLoad) (s : State) :
    (initSeq load s).committed = s.committed := rfl

@[simp] theorem initSeq_port (load : CrystalLoad) (s : State) :
    (initSeq load s).port = s.port := rfl

@[simp] theorem initSeq_result (load : CrystalLoad) (s : State) :
    (initSeq load s).result = s.result := rfl

@[simp] theorem initSeq_pinInput (load : CrystalLoad) (s : State) :
    (initSeq load s).pinInput = s.pinInput := rfl

@[simp] theorem initSeq_pinReads (load : CrystalLoad) (s : State) :
    (initSeq load s).pinReads = s.pinReads := rfl

@[simp] theorem initSeq_pinLevel (load : CrystalLoad) (s : State) (k : Nat) :
    (initSeq load s).pinLevel k = s.pinLevel k := rfl

/-! ### `configureIfBoth` -/

@[simp] theorem State.configureIfBoth_regs (s : State) : s.configureIfBoth.regs = s.regs := by
  unfold State.configureIfBoth; split <;> rfl

@[simp] theorem State.configureIfBoth_xtal (s : State) : s.configureIfBoth.xtal = s.xtal := by
  unfold State.configureIfBoth; split <;> rfl

@[simp] theorem State.configureIfBoth_pllA (s : State) : s.configureIfBoth.pllA = s.pllA := by
  unfold State.configureIfBoth; split <;> rfl

@[simp] theorem State.configureIfBoth_pllB (s : State) : s.configureIfBoth.pllB = s.pllB := by
  unfold State.configureIfBoth; split <;> rfl

@[simp] theorem State.configureIfBoth_ms0 (s : State) : s.configureIfBoth.ms0 = s.ms0 := by
  unfold State.configureIfBoth; split <;> rfl

@[simp] theorem State.configureIfBoth_ms1 (s : State) : s.configureIfBoth.ms1 = s.ms1 := by
  unfold State.configureIfBoth; split <;> rfl

@[simp] theorem State.configureIfBoth_ms2 (s : State) : s.configureIfBoth.ms2 = s.ms2 := by
  unfold State.configureIfBoth; split <;> rfl

@[simp] theorem State.configureIfBoth_pc (s : State) : s.configureIfBoth.pc = s.pc := by
  unfold State.configureIfBoth; split <;> rfl

@[simp] theorem State.configureIfBoth_committed (s : State) : s.configureIfBoth.committed = s.committed := by
  unfold State.configureIfBoth; split <;> rfl

@[simp] theorem State.configureIfBoth_trace (s : State) : s.configureIfBoth.trace = s.trace := by
  unfold State.configureIfBoth; split <;> rfl

@[simp] theorem State.configureIfBoth_port (s : State) : s.configureIfBoth.port = s.port := by
  unfold State.configureIfBoth; split <;> rfl

@[simp] theorem State.configureIfBoth_result (s : State) : s.configureIfBoth.result = s.result := by
  unfold State.configureIfBoth; split <;> rfl

@[simp] theorem State.configureIfBoth_pinInput (s : State) : s.configureIfBoth.pinInput = s.pinInput := by
  unfold State.configureIfBoth; split <;> rfl

@[simp] theorem State.configureIfBoth_pinReads (s : State) : s.configureIfBoth.pinReads = s.pinReads := by
  unfold State.configureIfBoth; split <;> rfl

@[simp] theorem State.configureIfBoth_synthState (s : State) :
    s.configureIfBoth.synthState = if s.pllA.isSome && s.pllB.isSome then .configured else s.synthState := by
  unfold State.configureIfBoth; split <;> rfl

@[simp] theorem State.configureIfBoth_pinLevel (s : State) (k : Nat) :
    s.configureIfBoth.pinLevel k = s.pinLevel k := by
  simp [State.pinLevel]

/-! ### SETUP_PLL -/

/-- The nine writes of SETUP_PLL, the reset trigger last (R102). -/
theorem Grew.setupPllWith (p : PllId) (r : PllRecord) (t : Triple) (s : State) :
    Grew s (setupPllWith p r t s) (blockEvents (pllBase p) (pack t) ++ [.regWrite 177 (pllResetByte p)]) :=
  ((Grew.writeBlock s (pllBase p) (pack t)).trans (.writeReg _ 177 (pllResetByte p))).congr rfl rfl
    (by simp [Machine.setupPllWith, pllResetAddr]) (by simp [Machine.setupPllWith, pllResetAddr])

@[simp] theorem setupPllWith_xtal (p : PllId) (r : PllRecord) (t : Triple) (s : State) :
    (setupPllWith p r t s).xtal = s.xtal := by
  simp [setupPllWith]

@[simp] theorem setupPllWith_pllA (p : PllId) (r : PllRecord) (t : Triple) (s : State) :
    (setupPllWith p r t s).pllA = if p = .a then some r else s.pllA := by
  simp [setupPllWith]

@[simp] theorem setupPllWith_pllB (p : PllId) (r : PllRecord) (t : Triple) (s : State) :
    (setupPllWith p r t s).pllB = if p = .b then some r else s.pllB := by
  simp [setupPllWith]

@[simp] theorem setupPllWith_ms0 (p : PllId) (r : PllRecord) (t : Triple) (s : State) :
    (setupPllWith p r t s).ms0 = s.ms0 := by
  simp [setupPllWith]

@[simp] theorem setupPllWith_ms1 (p : PllId) (r : PllRecord) (t : Triple) (s : State) :
    (setupPllWith p r t s).ms1 = s.ms1 := by
  simp [setupPllWith]

@[simp] theorem setupPllWith_ms2 (p : PllId) (r : PllRecord) (t : Triple) (s : State) :
    (setupPllWith p r t s).ms2 = s.ms2 := by
  simp [setupPllWith]

@[simp] theorem setupPllWith_pc (p : PllId) (r : PllRecord) (t : Triple) (s : State) :
    (setupPllWith p r t s).pc = s.pc := by
  simp [setupPllWith]

@[simp] theorem setupPllWith_committed (p : PllId) (r : PllRecord) (t : Triple) (s : State) :
    (setupPllWith p r t s).committed = s.committed := by
  simp [setupPllWith]

@[simp] theorem setupPllWith_port (p : PllId) (r : PllRecord) (t : Triple) (s : State) :
    (setupPllWith p r t s).port = s.port := by
  simp [setupPllWith]

@[simp] theorem setupPllWith_result (p : PllId) (r : PllRecord) (t : Triple) (s : State) :
    (setupPllWith p r t s).result = s.result := by
  simp [setupPllWith]

@[simp] theorem setupPllWith_pinInput (p : PllId) (r : PllRecord) (t : Triple) (s : State) :
    (setupPllWith p r t s).pinInput = s.pinInput := by
  simp [setupPllWith]

@[simp] theorem setupPllWith_pinReads (p : PllId) (r : PllRecord) (t : Triple) (s : State) :
    (setupPllWith p r t s).pinReads = s.pinReads := by
  simp [setupPllWith]

/-- The state machine of R101: Configured as soon as both PLL records are there. -/
@[simp] theorem setupPllWith_synthState (p : PllId) (r : PllRecord) (t : Triple) (s : State) :
    (setupPllWith p r t s).synthState =
      if (p = .a ∨ s.pllA.isSome) ∧ (p = .b ∨ s.pllB.isSome) then .configured else s.synthState := by
  cases p <;> simp [setupPllWith]

@[simp] theorem setupPllWith_pinLevel (p : PllId) (r : PllRecord) (t : Triple) (s : State) (k : Nat) :
    (setupPllWith p r t s).pinLevel k = s.pinLevel k := by
  simp [State.pinLevel]

theorem setupPllSeq_specified (p : PllId) (mult : Byte) (num denom : U32) (s : State) :
    setupPllSeq Config.specified p mult num denom s =
      .next (setupPllWith p { mult := mult, num := num, denom := denom }
        (encodePllZ .binary32 mult num denom).trunc s) := rfl

/-! ### SETUP_MS -/

/-- The nine writes of SETUP_MS, the control register last (R104). -/
theorem Grew.setupMsWith (o : OutputId) (r : MsRecord) (t : Triple) (s : State) :
    Grew s (setupMsWith o r t s)
      (blockEvents (msBase o) (pack t) ++ [.regWrite (msCtrl o) (ctrlByte r.src r.num)]) :=
  ((Grew.writeBlock s (msBase o) (pack t)).trans (.writeReg _ (msCtrl o) (ctrlByte r.src r.num))).congr rfl rfl rfl rfl

@[simp] theorem setupMsWith_synthState (o : OutputId) (r : MsRecord) (t : Triple) (s : State) :
    (setupMsWith o r t s).synthState = s.synthState := rfl

@[simp] theorem setupMsWith_xtal (o : OutputId) (r : MsRecord) (t : Triple) (s : State) :
    (setupMsWith o r t s).xtal = s.xtal := rfl

@[simp] theorem setupMsWith_pllA (o : OutputId) (r : MsRecord) (t : Triple) (s : State) :
    (setupMsWith o r t s).pllA = s.pllA := rfl

@[simp] theorem setupMsWith_pllB (o : OutputId) (r : MsRecord) (t : Triple) (s : State) :
    (setupMsWith o r t s).pllB = s.pllB := rfl

@[simp] theorem setupMsWith_ms0 (o : OutputId) (r : MsRecord) (t : Triple) (s : State) :
    (setupMsWith o r t s).ms0 = if o = .out0 then some r else s.ms0 := rfl

@[simp] theorem setupMsWith_ms1 (o : OutputId) (r : MsRecord) (t : Triple) (s : State) :
    (setupMsWith o r t s).ms1 = if o = .out1 then some r else s.ms1 := rfl

@[simp] theorem setupMsWith_ms2 (o : OutputId) (r : MsRecord) (t : Triple) (s : State) :
    (setupMsWith o r t s).ms2 = if o = .out2 then some r else s.ms2 := rfl

@[simp] theorem setupMsWith_pc (o : OutputId) (r : MsRecord) (t : Triple) (s : State) :
    (setupMsWith o r t s).pc = s.pc := rfl

@[simp] theorem setupMsWith_committed (o : OutputId) (r : MsRecord) (t : Triple) (s : State) :
    (setupMsWith o r t s).committed = s.committed := rfl

@[simp] theorem setupMsWith_port (o : OutputId) (r : MsRecord) (t : Triple) (s : State) :
    (setupMsWith o r t s).port = s.port := rfl

@[simp] theorem setupMsWith_result (o : OutputId) (r : MsRecord) (t : Triple) (s : State) :
    (setupMsWith o r t s).result = s.result := rfl

@[simp] theorem setupMsWith_pinInput (o : OutputId) (r : MsRecord) (t : Triple) (s : State) :
    (setupMsWith o r t s).pinInput = s.pinInput := rfl

@[simp] theorem setupMsWith_pinReads (o : OutputId) (r : MsRecord) (t : Triple) (s : State) :
    (setupMsWith o r t s).pinReads = s.pinReads := rfl

@[simp] theorem setupMsWith_pinLevel (o : OutputId) (r : MsRecord) (t : Triple) (s : State) (k : Nat) :
    (setupMsWith o r t s).pinLevel k = s.pinLevel k := rfl

theorem setupMsSeq_specified (o : OutputId) (src : PllId) (div num denom : U32) (s : State) :
    setupMsSeq Config.specified o src div num denom s =
      .next (setupMsWith o { div := div, num := num, denom := denom, src := src, intMode := isInt num }
        (encodeMsZ .binary32 div num denom).trunc s) := rfl

/-! ### ENABLE_OUTPUTS -/

theorem Grew.enableSeq (enabled : Bool) (s : State) :
    Grew s (enableSeq enabled s) [.regWrite 3 (enableMask enabled)] :=
  .writeReg s 3 (enableMask enabled)

@[simp] theorem enableSeq_synthState (enabled : Bool) (s : State) : (enableSeq enabled s).synthState = s.synthState := rfl

@[simp] theorem enableSeq_xtal (enabled : Bool) (s : State) : (enableSeq enabled s).xtal = s.xtal := rfl

@[simp] theorem enableSeq_pllA (enabled : Bool) (s : State) : (enableSeq enabled s).pllA = s.pllA := rfl

@[simp] theorem enableSeq_pllB (enabled : Bool) (s : State) : (enableSeq enabled s).pllB = s.pllB := rfl

@[simp] theorem enableSeq_ms0 (enabled : Bool) (s : State) : (enableSeq enabled s).ms0 = s.ms0 := rfl

@[simp] theorem enableSeq_ms1 (enabled : Bool) (s : State) : (enableSeq enabled s).ms1 = s.ms1 := rfl

@[simp] theorem enableSeq_ms2 (enabled : Bool) (s : State) : (enableSeq enabled s).ms2 = s.ms2 := rfl

@[simp] theorem enableSeq_pc (enabled : Bool) (s : State) : (enableSeq enabled s).pc = s.pc := rfl

@[simp] theorem enableSeq_committed (enabled : Bool) (s : State) : (enableSeq enabled s).committed = s.committed := rfl

@[simp] theorem enableSeq_port (enabled : Bool) (s : State) : (enableSeq enabled s).port = s.port := rfl

@[simp] theorem enableSeq_result (enabled : Bool) (s : State) : (enableSeq enabled s).result = s.result := rfl

@[simp] theorem enableSeq_pinInput (enabled : Bool) (s : State) : (enableSeq enabled s).pinInput = s.pinInput := rfl

@[simp] theorem enableSeq_pinReads (enabled : Bool) (s : State) : (enableSeq enabled s).pinReads = s.pinReads := rfl

@[simp] theorem enableSeq_pinLevel (enabled : Bool) (s : State) (k : Nat) :
    (enableSeq enabled s).pinLevel k = s.pinLevel k := rfl

/-! ### CHANGE_FREQ -/

/-- The state after `change_freq(level)` (R126). -/
def changeFreqState (level : Bool) (s : State) : State :=
  enableSeq true (setupMsWith .out1 (changeFreqRecord level) (encodeMsZ .binary32 (levelTarget level).2 0 1).trunc
    (setupMsWith .out0 (changeFreqRecord level) (encodeMsZ .binary32 (levelTarget level).2 0 1).trunc
      (enableSeq false s)))

/-- The blocks and control bytes of the two divisors, byte by byte. -/
theorem changeFreqEvents_eq (level : Bool) :
    [.regWrite 3 (enableMask false)] ++
        (blockEvents (msBase .out0) (pack (encodeMsZ .binary32 (levelTarget level).2 0 1).trunc) ++
          [.regWrite (msCtrl .out0) (ctrlByte (changeFreqRecord level).src (changeFreqRecord level).num)]) ++
        (blockEvents (msBase .out1) (pack (encodeMsZ .binary32 (levelTarget level).2 0 1).trunc) ++
          [.regWrite (msCtrl .out1) (ctrlByte (changeFreqRecord level).src (changeFreqRecord level).num)]) ++
        [.regWrite 3 (enableMask true)] = changeFreqEvents level := by
  by_cases h : level = Config.palLevel
  · simp only [levelTarget, changeFreqRecord, changeFreqEvents, h, if_true]; decide
  · simp only [levelTarget, changeFreqRecord, changeFreqEvents, h, if_false]; decide

theorem Grew.changeFreqState (level : Bool) (s : State) :
    Grew s (changeFreqState level s) (changeFreqEvents level) := by
  have h := (((Grew.enableSeq false s).trans (.setupMsWith .out0 (changeFreqRecord level)
    (encodeMsZ .binary32 (levelTarget level).2 0 1).trunc _)).trans (.setupMsWith .out1 (changeFreqRecord level)
      (encodeMsZ .binary32 (levelTarget level).2 0 1).trunc _)).trans (.enableSeq true _)
  rw [changeFreqEvents_eq] at h
  exact h

@[simp] theorem changeFreqState_trace (level : Bool) (s : State) :
    (changeFreqState level s).trace = s.trace ++ changeFreqEvents level :=
  (Grew.changeFreqState level s).trace

@[simp] theorem changeFreqState_synthState (level : Bool) (s : State) :
    (changeFreqState level s).synthState = s.synthState := by
  simp [changeFreqState]

@[simp] theorem changeFreqState_xtal (level : Bool) (s : State) :
    (changeFreqState level s).xtal = s.xtal := by
  simp [changeFreqState]

@[simp] theorem changeFreqState_pllA (level : Bool) (s : State) :
    (changeFreqState level s).pllA = s.pllA := by
  simp [changeFreqState]

@[simp] theorem changeFreqState_pllB (level : Bool) (s : State) :
    (changeFreqState level s).pllB = s.pllB := by
  simp [changeFreqState]

@[simp] theorem changeFreqState_ms0 (level : Bool) (s : State) :
    (changeFreqState level s).ms0 = some (changeFreqRecord level) := by
  simp [changeFreqState]

@[simp] theorem changeFreqState_ms1 (level : Bool) (s : State) :
    (changeFreqState level s).ms1 = some (changeFreqRecord level) := by
  simp [changeFreqState]

@[simp] theorem changeFreqState_ms2 (level : Bool) (s : State) :
    (changeFreqState level s).ms2 = s.ms2 := by
  simp [changeFreqState]

@[simp] theorem changeFreqState_pc (level : Bool) (s : State) :
    (changeFreqState level s).pc = s.pc := by
  simp [changeFreqState]

@[simp] theorem changeFreqState_committed (level : Bool) (s : State) :
    (changeFreqState level s).committed = s.committed := by
  simp [changeFreqState]

@[simp] theorem changeFreqState_port (level : Bool) (s : State) :
    (changeFreqState level s).port = s.port := by
  simp [changeFreqState]

@[simp] theorem changeFreqState_result (level : Bool) (s : State) :
    (changeFreqState level s).result = s.result := by
  simp [changeFreqState]

@[simp] theorem changeFreqState_pinInput (level : Bool) (s : State) :
    (changeFreqState level s).pinInput = s.pinInput := by
  simp [changeFreqState]

@[simp] theorem changeFreqState_pinReads (level : Bool) (s : State) :
    (changeFreqState level s).pinReads = s.pinReads := by
  simp [changeFreqState]

@[simp] theorem changeFreqState_pinLevel (level : Bool) (s : State) (k : Nat) :
    (changeFreqState level s).pinLevel k = s.pinLevel k := by
  simp [State.pinLevel]

theorem changeFreqRecord_eq (level : Bool) :
    ({ div := (levelTarget level).2, num := 0, denom := 1, src := (levelTarget level).1, intMode := isInt 0 } : MsRecord) =
      changeFreqRecord level := by
  by_cases h : level = Config.palLevel
  · simp only [levelTarget, changeFreqRecord, h, if_true]; decide
  · simp only [levelTarget, changeFreqRecord, h, if_false]; decide

/-- CHANGE_FREQ of the hardware specified always completes (R126, R140). -/
theorem changeFreqSeq_specified (level : Bool) (s : State) :
    changeFreqSeq Config.specified level s = .next (changeFreqState level s) := by
  simp only [changeFreqSeq, setupMsSeq_specified, andThen_next, changeFreqRecord_eq, Machine.changeFreqState]

/-- Committing a level of the hardware specified always completes (R125, R146). -/
theorem commitSeq_specified (level : Bool) (s : State) :
    commitSeq Config.specified level s = .next (changeFreqState level (s.commit level)) :=
  changeFreqSeq_specified level _

/-! ### BOOT -/

/-- The two PLL set-ups of BOOT, on the state INIT leaves (R122). -/
def bootPlls (s : State) : State :=
  setupPllWith .b { mult := Config.pllbRatio.mult, num := Config.pllbRatio.num, denom := Config.pllbRatio.denom }
    (encodePllZ .binary32 Config.pllbRatio.mult Config.pllbRatio.num Config.pllbRatio.denom).trunc
    (setupPllWith .a { mult := 25, num := 193181, denom := 250000 } (encodePllZ .binary32 25 193181 250000).trunc
      (initSeq Config.bootXtal s.configurePin))

theorem Grew.bootPlls (s : State) : Grew s (bootPlls s) bootPrefix := by
  have c : Grew s s.configurePin [.pinConfig Config.swPin Config.swMode] :=
    ⟨rfl, fun a => by simp [lastWrite]⟩
  have h := ((c.trans (.initSeq Config.bootXtal _)).trans (.setupPllWith .a ⟨25, 193181, 250000⟩
    (encodePllZ .binary32 25 193181 250000).trunc _)).trans (.setupPllWith .b
      ⟨Config.pllbRatio.mult, Config.pllbRatio.num, Config.pllbRatio.denom⟩
      (encodePllZ .binary32 Config.pllbRatio.mult Config.pllbRatio.num Config.pllbRatio.denom).trunc _)
  have e : blockEvents (pllBase .a) (pack (encodePllZ .binary32 25 193181 250000).trunc) ++
      [.regWrite 177 (pllResetByte .a)] = ntscPllEvents := by decide
  have e' : blockEvents (pllBase .b) (pack (encodePllZ .binary32 Config.pllbRatio.mult Config.pllbRatio.num
      Config.pllbRatio.denom).trunc) ++ [.regWrite 177 (pllResetByte .b)] = palPllEvents := by
    simp only [palPllEvents, pllBase, pllResetByte]
  rw [e, e'] at h
  exact h

/-- BOOT's sequence of the hardware specified always completes (R122): the PLLs, one pin read, the level read
committed. -/
theorem bootSeq_specified (s : State) :
    bootSeq Config.specified s =
      .next ((changeFreqState ((bootPlls s).pinLevel 0)
        ((bootPlls s).readPin.commit ((bootPlls s).pinLevel 0))).setPc .idle) := by
  simp only [bootSeq, setupPllSeq_specified, andThen_next, commitSeq_specified, returnToIdle]
  rfl

@[simp] theorem bootPlls_pinLevel (s : State) (k : Nat) : (bootPlls s).pinLevel k = s.pinLevel k := by
  simp only [bootPlls, setupPllWith_pinLevel, initSeq_pinLevel, State.configurePin_pinLevel]

/-! ### POLL -/

/-- What the second half of POLL answers, by the level of its read (R125). -/
theorem confirmSeq_specified (c : Bool) (s : State) :
    confirmSeq Config.specified c s =
      .next ((if s.pinLevel 0 = c then s.delay.readPin
        else changeFreqState (!c) (s.delay.readPin.commit (!c))).setPc .idle) := by
  cases h : s.pinLevel 0 <;> cases c <;> simp [confirmSeq, h, commitSeq_specified, returnToIdle]

/-- A poll of the hardware specified completes in every state in which BOOT has committed a level (R124, R125). -/
theorem pollHalf_specified {s : State} {c : Bool} (h : s.committed = some c) :
    pollHalf Config.specified s =
      match s.pc with
      | .reset => .refused .pollBeforeBoot
      | .idle => finish (sampleSeq c s)
      | .settle => finish ((if s.pinLevel 0 = c then s.delay.readPin
          else changeFreqState (!c) (s.delay.readPin.commit (!c))).setPc .idle) := by
  cases hp : s.pc <;> simp only [pollHalf, hp, h, confirmSeq_specified, andThen_next]

end Sys2Proof.Machine
end

