-- ==== Sys2Proof/Laws/Exec.lean ====
section
/-!
SUPPORT. What each operation of the hardware specified answers, said once: the state it answers where it completes, and
that it completes nowhere else. Later proofs cite these instead of unfolding a meaning.
-/

namespace Sys2Proof.Machine

open Sys2Proof.Safety

/-- The operands for which R82 leaves the encoder without a meaning, or the others. -/
theorem fraction_defined_or (num denom : U32) : (num ≠ 0 → denom ≠ 0) ∨ (num ≠ 0 ∧ denom = 0) := by
  tauto

/-! ### The operations that encode (R70, R71, R102, R104) -/

theorem exec_encPll_eq (mult : Byte) {num denom : U32} (h : num ≠ 0 → denom ≠ 0) (s : State) :
    exec (.encPll mult num denom) s = .next (s.returns (.triple (encodePllZ .binary32 mult num denom).trunc)) := by
  simp only [exec, execEncPll, encPllOp, fracUndefined_eq_false h, encodePll_specified]; rfl

theorem exec_encMs_eq (div : U32) {num denom : U32} (h : num ≠ 0 → denom ≠ 0) (s : State) :
    exec (.encMs div num denom) s = .next (s.returns (.triple (encodeMsZ .binary32 div num denom).trunc)) := by
  simp only [exec, execEncMs, encMsOp, fracUndefined_eq_false h, encodeMs_specified]; rfl

theorem exec_setupPll_eq (p : PllId) (mult : Byte) {num denom : U32} (h : num ≠ 0 → denom ≠ 0) (s : State) :
    exec (.setupPll p mult num denom) s =
      .next ((setupPllWith p { mult := mult, num := num, denom := denom }
        (encodePllZ .binary32 mult num denom).trunc s).returns .nothing) := by
  simp only [exec, execSetupPll, setupPllOp, fracUndefined_eq_false h, setupPllSeq_specified]; rfl

theorem exec_setupMs_eq (o : OutputId) (src : PllId) (div : U32) {num denom : U32} (h : num ≠ 0 → denom ≠ 0)
    (s : State) :
    exec (.setupMs o src div num denom) s =
      .next ((setupMsWith o { div := div, num := num, denom := denom, src := src, intMode := isInt num }
        (encodeMsZ .binary32 div num denom).trunc s).returns .nothing) := by
  simp only [exec, execSetupMs, setupMsOp, fracUndefined_eq_false h, setupMsSeq_specified]; rfl

theorem exec_encPll_next {mult : Byte} {num denom : U32} {s t : State}
    (h : exec (.encPll mult num denom) s = .next t) :
    (num ≠ 0 → denom ≠ 0) ∧ t = s.returns (.triple (encodePllZ .binary32 mult num denom).trunc) := by
  rcases fraction_defined_or num denom with k | k
  · rw [exec_encPll_eq _ k] at h; exact ⟨k, by cases h; rfl⟩
  · simp only [exec, execEncPll, encPllOp, (fracUndefined_specified num denom).2 k, if_true] at h; cases h

theorem exec_encMs_next {div num denom : U32} {s t : State} (h : exec (.encMs div num denom) s = .next t) :
    (num ≠ 0 → denom ≠ 0) ∧ t = s.returns (.triple (encodeMsZ .binary32 div num denom).trunc) := by
  rcases fraction_defined_or num denom with k | k
  · rw [exec_encMs_eq _ k] at h; exact ⟨k, by cases h; rfl⟩
  · simp only [exec, execEncMs, encMsOp, (fracUndefined_specified num denom).2 k, if_true] at h; cases h

theorem exec_setupPll_next {p : PllId} {mult : Byte} {num denom : U32} {s t : State}
    (h : exec (.setupPll p mult num denom) s = .next t) :
    (num ≠ 0 → denom ≠ 0) ∧
      t = (setupPllWith p { mult := mult, num := num, denom := denom }
        (encodePllZ .binary32 mult num denom).trunc s).returns .nothing := by
  rcases fraction_defined_or num denom with k | k
  · rw [exec_setupPll_eq _ _ k] at h; exact ⟨k, by cases h; rfl⟩
  · simp only [exec, execSetupPll, setupPllOp, (fracUndefined_specified num denom).2 k, if_true] at h; cases h

theorem exec_setupMs_next {o : OutputId} {src : PllId} {div num denom : U32} {s t : State}
    (h : exec (.setupMs o src div num denom) s = .next t) :
    (num ≠ 0 → denom ≠ 0) ∧
      t = (setupMsWith o { div := div, num := num, denom := denom, src := src, intMode := isInt num }
        (encodeMsZ .binary32 div num denom).trunc s).returns .nothing := by
  rcases fraction_defined_or num denom with k | k
  · rw [exec_setupMs_eq _ _ _ k] at h; exact ⟨k, by cases h; rfl⟩
  · simp only [exec, execSetupMs, setupMsOp, (fracUndefined_specified num denom).2 k, if_true] at h; cases h

/-! ### CHANGE_FREQ and BOOT (R126, R122) -/

theorem exec_changeFreq_eq (level : Bool) {s : State} (h : s.pc ≠ .settle) :
    exec (.changeFreq level) s = .next ((changeFreqState level s).returns .nothing) := by
  cases hp : s.pc <;> simp_all [exec, execChangeFreq, changeFreqOp, changeFreqSeq_specified, finish]

theorem exec_changeFreq_next {level : Bool} {s t : State} (h : exec (.changeFreq level) s = .next t) :
    s.pc ≠ .settle ∧ t = (changeFreqState level s).returns .nothing := by
  cases hp : s.pc <;> simp_all [exec, execChangeFreq, changeFreqOp, changeFreqSeq_specified, finish]

/-- The state BOOT leaves (R122). -/
def bootState (s : State) : State :=
  ((changeFreqState (s.pinLevel 0) ((bootPlls s).readPin.commit (s.pinLevel 0))).setPc .idle).returns .nothing

theorem exec_boot_eq {s : State} (h : s.pc = .reset) : exec .boot s = .next (bootState s) := by
  simp only [exec, execBoot, bootOp, h, bootSeq_specified, andThen_next, finish, bootPlls_pinLevel, bootState]

theorem exec_boot_next {s t : State} (h : exec .boot s = .next t) : s.pc = .reset ∧ t = bootState s := by
  cases hp : s.pc <;> simp_all [exec, execBoot, bootOp, bootSeq_specified, finish, bootState]

theorem Grew.bootState (s : State) :
    Grew s (bootState s) (bootPrefix ++ [.pinRead (s.pinLevel 0)] ++ changeFreqEvents (s.pinLevel 0)) := by
  have read : Grew (Machine.bootPlls s) ((Machine.bootPlls s).readPin.commit (s.pinLevel 0))
      [.pinRead (s.pinLevel 0)] := ⟨by simp, fun a => by simp [lastWrite]⟩
  exact (((Grew.bootPlls s).trans read).trans (Grew.changeFreqState (s.pinLevel 0) _)).congr rfl rfl
    (by simp only [Machine.bootState, State.returns_trace, State.setPc_trace])
    (by simp only [Machine.bootState, State.returns_regs, State.setPc_regs])

/-! ### POLL (R124, R125) -/

/-- The state the second half of POLL leaves, `c` the committed level (R125). -/
def confirmState (c : Bool) (s : State) : State :=
  ((if s.pinLevel 0 = c then s.delay.readPin
    else changeFreqState (!c) (s.delay.readPin.commit (!c))).setPc .idle).returns .nothing

theorem Grew.confirmState (c : Bool) (s : State) :
    Grew s (confirmState c s) ([.delay Config.settleMs, .pinRead (s.pinLevel 0)] ++
      if s.pinLevel 0 = c then [] else changeFreqEvents (!c)) := by
  have read : Grew s s.delay.readPin [.delay Config.settleMs, .pinRead (s.pinLevel 0)] :=
    ⟨by simp, fun a => by simp [lastWrite]⟩
  unfold Machine.confirmState
  split
  · exact (read.trans (.refl _)).congr rfl rfl (by simp) (by simp)
  · exact (read.trans ((Grew.changeFreqState (!c) (s.delay.readPin.commit (!c))).congr (s' := s.delay.readPin)
      rfl rfl rfl rfl)).congr rfl rfl (by simp only [State.returns_trace, State.setPc_trace])
        (by simp only [State.returns_regs, State.setPc_regs])

/-- The state the first half of POLL leaves (R124). -/
def sampleState (c : Bool) (s : State) : State :=
  (sampleSeq c s).returns .nothing

theorem Grew.sampleState (c : Bool) (s : State) : Grew s (sampleState c s) [.pinRead (s.pinLevel 0)] :=
  ⟨by simp [Machine.sampleState, sampleSeq], fun a => by simp [Machine.sampleState, sampleSeq, lastWrite]⟩

theorem sampleState_pc (c : Bool) (s : State) :
    (sampleState c s).pc = if s.pinLevel 0 = c then .idle else .settle := by
  cases h : s.pinLevel 0 <;> cases c <;> simp [sampleState, sampleSeq, h]

/-- One half of POLL completes exactly where BOOT has committed a level and `mc.pc` is not `RESET`. -/
theorem pollHalf_next {s t : State} (h : pollHalf Config.specified s = .next t) :
    ∃ c, s.committed = some c ∧
      ((s.pc = .idle ∧ t = sampleState c s) ∨ (s.pc = .settle ∧ t = confirmState c s)) := by
  cases hc : s.committed with
  | none => cases hp : s.pc <;> simp [pollHalf, hp, hc] at h
  | some c =>
    refine ⟨c, rfl, ?_⟩
    rw [pollHalf_specified hc] at h
    cases hp : s.pc <;> simp_all [finish, confirmState, sampleState]

/-- The three ways a POLL command completes: a sample alone, a confirmation alone (issued in `SETTLE`, log 11), or a
sample followed by its confirmation. -/
theorem exec_poll_next {s t : State} (h : exec .poll s = .next t) :
    ∃ c, s.committed = some c ∧
      ((s.pc = .idle ∧ s.pinLevel 0 = c ∧ t = sampleState c s) ∨
        (s.pc = .settle ∧ t = confirmState c s) ∨
        (s.pc = .idle ∧ s.pinLevel 0 ≠ c ∧ t = confirmState c (sampleState c s))) := by
  simp only [exec, execPoll, pollOp] at h
  cases hp : s.pc with
  | reset => rw [hp] at h; obtain ⟨c, _, h'⟩ := pollHalf_next h; simp [hp] at h'
  | settle => rw [hp] at h; obtain ⟨c, hc, h'⟩ := pollHalf_next h; simp [hp] at h'; exact ⟨c, hc, by simp [h']⟩
  | idle =>
    rw [hp] at h
    obtain ⟨u, h1, h2⟩ := andThen_eq_next.1 h
    obtain ⟨c, hc, h'⟩ := pollHalf_next h1
    simp only [hp, true_and, reduceCtorEq, false_and, or_false] at h'
    refine ⟨c, hc, ?_⟩
    subst h'
    by_cases hx : s.pinLevel 0 = c
    · rw [if_neg (by simp [sampleState_pc, hx])] at h2
      simp only [Host.Outcome.next.injEq] at h2
      simp [hx, h2.symm]
    · have hs : (sampleState c s).pc = .settle := by simp [sampleState_pc, hx]
      rw [if_pos hs] at h2
      obtain ⟨c', hc', h''⟩ := pollHalf_next h2
      have e : c = c' := Option.some.inj (hc.symm.trans hc')
      subst e
      rcases h'' with ⟨k, _⟩ | ⟨_, k⟩
      · rw [hs] at k; cases k
      · exact .inr (.inr ⟨rfl, hx, k⟩)

end Sys2Proof.Machine
end

