-- ==== Sys2Proof/Laws/PerInstr.lean ====
section
/-!
SUPPORT. What holds of every operation as syntax, one lemma for each constructor of `Instr`.
-/

namespace Sys2Proof.Laws.EncodeLegal

/-- The fields the encoder gives an operation are legal: no reserved encoding of R60 is ever made. -/
def Statement (i : Instr) : Prop :=
  (encodeFields i).wellFormed = true

theorem encPll (mult : Byte) (num denom : U32) : Statement (.encPll mult num denom) := rfl

theorem encMs (div num denom : U32) : Statement (.encMs div num denom) := rfl

theorem pack (p1 p2 p3 : U32) : Statement (.pack p1 p2 p3) := rfl

theorem wrReg (addr val : Byte) : Statement (.wrReg addr val) := rfl

theorem wrDivblk (base : Byte) (p1 p2 p3 : U32) : Statement (.wrDivblk base p1 p2 p3) := rfl

theorem init (load : CrystalLoad) : Statement (.init load) := by cases load <;> rfl

theorem setupPll (id : PllId) (mult : Byte) (num denom : U32) : Statement (.setupPll id mult num denom) := by
  cases id <;> rfl

theorem setupMs (out : OutputId) (src : PllId) (div num denom : U32) : Statement (.setupMs out src div num denom) := by
  cases out <;> rfl

theorem enableOutputs (enabled : Bool) : Statement (.enableOutputs enabled) := rfl

theorem changeFreq (level : Bool) : Statement (.changeFreq level) := rfl

theorem boot : Statement .boot := rfl

theorem poll : Statement .poll := rfl

end Sys2Proof.Laws.EncodeLegal
end

