-- ==== Sys2Proof/Laws/Step.lean ====
section
/-!
SUPPORT. What one step can do, said once, and how a run goes on after it.
-/

namespace Sys2Proof.Machine

/-- A step that answers a next state ran a command from the test port, or BOOT in `RESET`, or one half of POLL. -/
theorem step_next {s t : State} (h : step s = .next t) :
    (∃ w rest i, s.port = w :: rest ∧ decode w = .ok i ∧ exec i (s.setPort rest) = .next t) ∨
      (s.port = [] ∧ s.pc = .reset ∧ t = bootState s) ∨
      (s.port = [] ∧ ∃ c, s.committed = some c ∧
        ((s.pc = .idle ∧ t = sampleState c s) ∨ (s.pc = .settle ∧ t = confirmState c s))) := by
  unfold step at h
  cases hp : s.port with
  | nil =>
    rw [fetch_nil hp] at h
    right
    by_cases hr : s.pc = .reset
    · simp only [wiredStep, hr] at h
      exact .inl ⟨rfl, hr, (exec_boot_next h).2⟩
    · have half : pollHalf Config.specified s = .next t := by
        cases h' : s.pc <;> simp_all [wiredStep]
      exact .inr ⟨rfl, pollHalf_next half⟩
  | cons w rest =>
    rw [fetch_cons hp] at h
    left
    cases hd : decode w with
    | ok i => simp only [hd] at h; exact ⟨w, rest, i, rfl, hd, h⟩
    | error e => simp only [hd] at h; cases h

/-- The Mode Controller's own step from `RESET`. -/
theorem step_reset {s : State} (hp : s.port = []) (h : s.pc = .reset) : step s = .next (bootState s) := by
  simp only [step, fetch_nil hp, wiredStep, h]
  exact exec_boot_eq h

/-- The Mode Controller's own step from `IDLE`. -/
theorem step_idle {s : State} {c : Bool} (hp : s.port = []) (hc : s.committed = some c) (h : s.pc = .idle) :
    step s = .next (sampleState c s) := by
  simp only [step, fetch_nil hp, wiredStep, h, pollHalf_specified hc]; rfl

/-- The Mode Controller's own step from `SETTLE`. -/
theorem step_settle {s : State} {c : Bool} (hp : s.port = []) (hc : s.committed = some c) (h : s.pc = .settle) :
    step s = .next (confirmState c s) := by
  simp only [step, fetch_nil hp, wiredStep, h, pollHalf_specified hc]; rfl

/-- A run goes on from the state its first step answers. -/
theorem run_next {s t : State} (h : step s = .next t) (n : Nat) :
    (Sys2Proof.core.run (n + 1) s : Out) = Sys2Proof.core.run n t := by
  have h' : Sys2Proof.core.step s = .next t := h
  simp only [Host.Core.run, h']

end Sys2Proof.Machine
end

