-- ==== Sys2Proof/Tests/Slice0.lean ====
section
/-!
SUPPORT. Tests of the model against values the spec prints (95_test_vectors.md, cited by vector id), and for every
statement with hypotheses a theorem that some state and operands meet them together.
-/

namespace Sys2Proof.Tests

open Sys2Proof.Machine Sys2Proof.Safety

/-! ### Small states and observations -/

/-- Reset, with one command word on the test port. -/
def commanded (w : CmdWord) : State :=
  { State.reset with port := [w] }

/-- A controller in `IDLE` that committed `c` and will read these levels. -/
def idleState (c : Bool) (pins : List Bool) : State :=
  { State.reset with pc := .idle, committed := some c, pinInput := pins }

/-- A controller in `SETTLE` that committed `c` and will read these levels. -/
def settleState (c : Bool) (pins : List Bool) : State :=
  { State.reset with pc := .settle, committed := some c, pinInput := pins }

/-- The register writes of the state an outcome answers. -/
def writesAfter : Out → Option (List (Byte × Byte))
  | .next s => some (writesOf s.trace)
  | _ => none

/-- What the operation returned. -/
def returned : Out → Option OpResult
  | .next s => some s.result
  | _ => none

/-- The events of the state an outcome answers. -/
def eventsAfter : Out → Option (List Event)
  | .next s => some s.trace
  | _ => none

/-- `mc.pc` and `mc.committed` of the state an outcome answers. -/
def controllerAfter : Out → Option (Pc × Option Bool)
  | .next s => some (s.pc, s.committed)
  | _ => none

/-- Why an outcome was refused. -/
def refusal : Out → Option Refusal
  | .refused r => some r
  | _ => none

/-! ### WellFormed refuses an ill-formed term of each kind (R60) -/

theorem test_wellFormed_accepts : (CmdFields.zero 0).wellFormed = true := by decide

theorem test_wellFormed_bit7 : { CmdFields.zero 8 with zeroLo := 1 }.wellFormed = false := by decide

theorem test_wellFormed_high_bits : { CmdFields.zero 8 with zeroHi := 0x8000 }.wellFormed = false := by decide

theorem test_wellFormed_op12 : (CmdFields.zero 12).wellFormed = false := by decide

theorem test_wellFormed_crystal3 : { CmdFields.zero 5 with id := 3 }.wellFormed = false := by decide

theorem test_wellFormed_pll2 : { CmdFields.zero 6 with id := 2 }.wellFormed = false := by decide

theorem test_wellFormed_output3 : { CmdFields.zero 7 with id := 3 }.wellFormed = false := by decide

/-! ### Decoding, from the words of PROG-1 to PROG-5 -/

theorem test_decode_encPll : decode 0x00000003D0900002F29D000000001900 = .ok (.encPll 25 193181 250000) := by decide

theorem test_decode_encMs : decode 0x00000000000100000003000000080001 = .ok (.encMs 8 3 1) := by decide

theorem test_decode_pack : decode 0x00000003D0900003776000000AE20002 = .ok (.pack 2786 227168 250000) := by decide

theorem test_decode_wrReg : decode 0x00000000000000000000000000FF0303 = .ok (.wrReg 3 0xFF) := by decide

theorem test_decode_wrDivblk : decode 0x00000003D0900003776000000AE21A04 = .ok (.wrDivblk 26 2786 227168 250000) := by
  decide

theorem test_decode_init : decode 0x00000000000000000000000000000025 = .ok (.init .pf10) := by decide

theorem test_decode_setupPll : decode 0x0000000BEBC20007EFCD000000001B16 = .ok (.setupPll .b 27 520141 781250) := by
  decide

theorem test_decode_setupMs : decode 0x00000000000300000001000000080067 = .ok (.setupMs .out2 .b 8 1 3) := by decide

theorem test_decode_enableOutputs : decode 0x00000000000000000000000000005548 = .ok (.enableOutputs true) := by decide

theorem test_decode_changeFreq : decode 0x00000000000000000000000000000049 = .ok (.changeFreq true) := by decide

theorem test_decode_boot : decode 0x0000000000000000000000000000000A = .ok .boot := by decide

theorem test_decode_poll : decode 0x0000000000000000000000000000000B = .ok .poll := by decide

theorem test_decode_op12 : decode 0x0000000000000000000000000000000C = .error .reservedOp := by decide

theorem test_decode_pll2 : decode 0x00000000000100000000000000001926 = .error .reservedPllId := by decide

theorem test_decode_bit7 : decode 0x000000000000000000000000000000C8 = .error .reservedBits := by decide

theorem test_decode_crystal3 : decode 0x00000000000000000000000000000035 = .error .reservedCrystalLoad := by decide

theorem test_decode_output3 : decode 0x00000000000000000000000000000037 = .error .reservedOutputId := by decide

/-- Wrong in two ways, bit 7 set and `op` 12: the must-be-zero bit is named (the model's choice, log 15). -/
theorem test_decode_two_defects : decode 0x0000000000000000000000000000008C = .error .reservedBits := by decide

theorem test_decodeTableWord : decodeTableWord 128 0x00000003D0900002F29D000000001900 =
    some (.encPll 25 193181 250000) := by decide

theorem test_withFetchWord : writesAfter (step (State.reset.withFetchWord 128 0xFF0303)) = some [(3, 0xFF)] := by decide

/-! ### One step of each operation -/

/-- R70's example; the reference triple of the NTSC PLL. -/
theorem test_encPll : returned (exec (.encPll 25 193181 250000) .reset) =
    some (.triple { p1 := 2786, p2 := 227168, p3 := 250000 }) := by decide

/-- PROG-4 step 1: binary32 rounds `frac` up and `P2` wraps. -/
theorem test_encPll_binary32 : returned (exec (.encPll 25 157699 262149) .reset) =
    some (.triple { p1 := 2765, p2 := 0xFFFFFFFF, p3 := 262149 }) := by decide

/-- R84: the simplified path. -/
theorem test_encMs_simplified : returned (exec (.encMs 8 3 1) .reset) =
    some (.triple { p1 := 896, p2 := 256, p3 := 1 }) := by decide

/-- PROG-3: the general path. -/
theorem test_encMs_general : returned (exec (.encMs 8 1 3) .reset) =
    some (.triple { p1 := 554, p2 := 2, p3 := 3 }) := by decide

/-- PROG-4 step 2. -/
theorem test_pack : returned (exec (.pack 0xACD 0xFFFFFFFF 0x40005) .reset) =
    some (.block { b0 := 0x00, b1 := 0x05, b2 := 0x00, b3 := 0x0A, b4 := 0xCD, b5 := 0x4F, b6 := 0xFF, b7 := 0xFF }) := by
  decide

/-- A vector of L2.2: every nibble of every word differs. -/
theorem test_pack_layout : returned (exec (.pack 0x12345 0xABCDE 0x6789F) .reset) =
    some (.block { b0 := 0x78, b1 := 0x9F, b2 := 0x01, b3 := 0x23, b4 := 0x45, b5 := 0x6A, b6 := 0xBC, b7 := 0xDE }) := by
  decide

/-- V-W2. -/
theorem test_wrReg : writesAfter (exec (.wrReg 177 0x20) .reset) = some [(177, 0x20)] := by decide

/-- V-W3. -/
theorem test_wrDivblk : writesAfter (exec (.wrDivblk 26 2786 227168 250000) .reset) =
    some [(26, 0xD0), (27, 0x90), (28, 0x00), (29, 0x0A), (30, 0xE2), (31, 0x33), (32, 0x77), (33, 0x60)] := by decide

/-- V-W5: the address wraps modulo 256. -/
theorem test_wrDivblk_wraps : writesAfter (exec (.wrDivblk 250 1 2 3) .reset) =
    some [(250, 0x00), (251, 0x03), (252, 0x00), (253, 0x00), (254, 0x01), (255, 0x00), (0, 0x00), (1, 0x02)] := by
  decide

/-- V-Y1. -/
theorem test_init (load : CrystalLoad) : writesAfter (exec (.init load) .reset) =
    some [(3, 0xFF), (16, 0x80), (17, 0x80), (18, 0x80), (183, Config.xtalCode load)] := rfl

/-- V-Y3. -/
theorem test_setupPll : writesAfter (exec (.setupPll .b 27 520141 781250) .reset) =
    some [(34, 0xEB), (35, 0xC2), (36, 0x00), (37, 0x0B), (38, 0xD5), (39, 0xB2), (40, 0x9F), (41, 0x16),
      (177, 0x80)] := by decide

/-- V-Y5: out of range, the wrapped `P1` is serialised and nothing signals it. -/
theorem test_setupPll_wraps : writesAfter (exec (.setupPll .a 3 0 1) .reset) =
    some [(26, 0x00), (27, 0x01), (28, 0x03), (29, 0xFF), (30, 0x80), (31, 0x00), (32, 0x00), (33, 0x00),
      (177, 0x20)] := by decide

/-- V-Y9. -/
theorem test_setupMs : writesAfter (exec (.setupMs .out2 .b 8 1 3) .reset) =
    some [(58, 0x00), (59, 0x03), (60, 0x00), (61, 0x02), (62, 0x2A), (63, 0x00), (64, 0x00), (65, 0x02),
      (18, 0x2F)] := by decide

/-- V-Y10: the simplified path is no integer mode. -/
theorem test_setupMs_simplified : writesAfter (exec (.setupMs .out0 .a 8 3 1) .reset) =
    some [(42, 0x00), (43, 0x01), (44, 0x00), (45, 0x03), (46, 0x80), (47, 0x00), (48, 0x01), (49, 0x00),
      (16, 0x0F)] := by decide

/-- V-Y12, V-Y13. -/
theorem test_enableOutputs : writesAfter (exec (.enableOutputs false) .reset) = some [(3, 0xFF)] ∧
    writesAfter (exec (.enableOutputs true) .reset) = some [(3, 0x00)] := by decide

/-- V-C2. -/
theorem test_changeFreq_pal : writesAfter (exec (.changeFreq Config.palLevel) .reset) =
    some [(3, 0xFF), (42, 0x00), (43, 0x01), (44, 0x00), (45, 0x0B), (46, 0x00), (47, 0x00), (48, 0x00), (49, 0x00),
      (16, 0x6F), (50, 0x00), (51, 0x01), (52, 0x00), (53, 0x0B), (54, 0x00), (55, 0x00), (56, 0x00), (57, 0x00),
      (17, 0x6F), (3, 0x00)] := by
  rw [exec_changeFreq_eq _ (by decide)]
  simp only [writesAfter, State.returns_trace, changeFreqState_trace, changeFreqEvents, if_true]
  decide

/-- V-C1. -/
theorem test_changeFreq_ntsc : writesAfter (exec (.changeFreq (!Config.palLevel)) .reset) =
    some [(3, 0xFF), (42, 0x00), (43, 0x01), (44, 0x00), (45, 0x0D), (46, 0x00), (47, 0x00), (48, 0x00), (49, 0x00),
      (16, 0x4F), (50, 0x00), (51, 0x01), (52, 0x00), (53, 0x0D), (54, 0x00), (55, 0x00), (56, 0x00), (57, 0x00),
      (17, 0x4F), (3, 0x00)] := by
  rw [exec_changeFreq_eq _ (by decide)]
  simp only [writesAfter, State.returns_trace, changeFreqState_trace, changeFreqEvents, Bool.not_eq_eq_eq_not,
    Bool.eq_not_self, if_false]
  decide

/-- PROG-1: 43 register writes, the level read is committed. -/
theorem test_boot : controllerAfter (exec .boot (resetWith [false])) = some (.idle, some false) ∧
    (writesAfter (exec .boot (resetWith [false]))).map List.length = some 43 := by decide

/-- V-D1, V-D2: an idle poll, and a bounce. -/
theorem test_poll_discards : eventsAfter (exec .poll (idleState false [false])) = some [.pinRead false] ∧
    eventsAfter (exec .poll (idleState false [true, false])) =
      some [.pinRead true, .delay Config.settleMs, .pinRead false] := ⟨rfl, rfl⟩

/-- V-D3, V-D4: a confirmed transition is committed with one frequency change. -/
theorem test_poll_commits : controllerAfter (exec .poll (idleState false [true, true])) = some (.idle, some true) ∧
    (writesAfter (exec .poll (idleState false [true, true]))).map List.length = some 20 := by decide

/-- V-R1, V-R4: the variant raises, and writes nothing. -/
theorem test_rangeCheck_raises :
    setupMsOp ⟨.binary32, .on⟩ .out0 .a 2052 0 1 .reset =
      .fault (.rangeError { op := .encMs, a := 2052, num := 0, denom := 1 } .reset) ∧
    encPllOp ⟨.binary32, .on⟩ 25 0 0 .reset =
      .fault (.rangeError { op := .encPll, a := 25, num := 0, denom := 0 } .reset) := ⟨rfl, rfl⟩

/-! ### Some state and operands meet the hypotheses of every statement -/

theorem witness_StepRunsTheDecodedCommand :
    (commanded 0xA).port = [0xA] ∧ decode 0xA = .ok .boot ∧ (commanded 0xC).port = [0xC] ∧
      decode 0xC = .error .reservedOp := by decide

theorem witness_StepWithoutCommandIsTheModeControllers :
    State.reset.port = [] ∧ State.reset.pc = .reset ∧ (settleState true []).port = [] ∧
      (settleState true []).pc = .settle := by decide

/-- Both levels: one that stays in `IDLE`, one that goes to `SETTLE`. -/
theorem witness_WiredSampleReadsThePinOnce :
    (idleState true [true]).port = [] ∧ (idleState true [true]).pc = .idle ∧
      (idleState true [true]).committed = some true ∧ (idleState true [true]).pinLevel 0 = true ∧
      (idleState true [false]).pinLevel 0 ≠ true := by decide

theorem witness_ConfirmCommitsOrDiscards :
    (settleState false [true]).pc = .settle ∧ (settleState false [true]).committed = some false ∧
      (settleState false [true]).pinLevel 0 ≠ false ∧ (settleState false [false]).pinLevel 0 = false := by decide

theorem witness_PollCommandComposesTheTwoHalves :
    (idleState false [true, true]).port = [] ∧ (idleState false [true, true]).pc = .idle ∧
      (idleState false [true, true]).committed = some false := by decide

/-- An integer ratio over 0, and a fractional ratio over 1: the two ends of the hypothesis. -/
theorem witness_EncPllReturnsThePackedTriple :
    ((0 : U32) ≠ 0 → (0 : U32) ≠ 0) ∧ ((193181 : U32) ≠ 0 → (1 : U32) ≠ 0) := by decide

/-- One triple for each of the three branches. -/
theorem witness_EncMsReturnsThePackedTriple :
    ((0 : U32) ≠ 0 → (0 : U32) ≠ 0) ∧ ((3 : U32) ≠ 0 → (1 : U32) ≠ 0) ∧ ((1 : U32) ≠ 0 → (3 : U32) ≠ 0) := by decide

theorem witness_IntegerModeTripleOfAPll : 4 ≤ (4 : Byte).toNat ∧ (3 : Byte).toNat < 4 := by decide

theorem witness_FractionOverZeroIsRefused : (1 : U32) ≠ 0 := by decide

/-- A rational, and one that lies halfway between two binary32 numbers. -/
theorem witness_Binary32RoundingIsNearestEven :
    0 < (Ratio.mk 1 3).num ∧ 0 < (Ratio.mk 1 3).den ∧ 0 < (Ratio.mk (2 ^ 24 + 1) 1).num ∧
      (Ratio.mk (2 ^ 24 + 1) 1).rn32.floor = 2 ^ 24 := by decide

theorem witness_Binary32FractionIsExactOrOneMore :
    0 < 157699 ∧ 157699 < 2 ^ 24 ∧ 262149 < 2 ^ 24 ∧ fracExact 157699 262149 + 1 < 2 ^ 24 ∧
      fracB32 157699 262149 = fracExact 157699 262149 + 1 := by decide

/-- The greatest denominator, with the greatest and the least numerator. -/
theorem witness_FractionModesAgreeBelowTwoToThe18 :
    0 < 262142 ∧ 262142 < 262143 ∧ 262143 < 2 ^ 18 ∧ fracB32 262142 262143 = 127 ∧ fracB32 1 262143 = 0 := by decide

theorem witness_FractionalP2IsTheRemainder :
    0 < 262149 ∧ fracB32 157699 262149 = fracExact 157699 262149 + 1 := by decide

theorem witness_TripleStandsForTheRatio :
    (1 : U32) ≠ 0 ∧ ((0 : U32) = 0 ∨ (1 : U32) ≠ 1) ∧ ((1 : U32) = 0 ∨ (3 : U32) ≠ 1) := by decide

/-- A fraction under `binary32` at the greatest `num*t`, and one under `exact` beyond it. -/
theorem witness_SimplifiedPathIsNotTheGeneralOne :
    (1 : U32) ≠ 0 ∧ 1 < 2 ^ 24 - 1 ∧ (1 : U32).toNat * (2 ^ 24 - 1) < 2 ^ 24 ∧
      (1 : U32).toNat * (2 ^ 32 - 1) < 2 ^ 32 ∧ Config.FracMode.exact = .exact := by decide

/-- Both ends of every field. -/
theorem witness_InRangeTriplesSurviveSerialisation :
    (TripleZ.mk (2 ^ 18 - 1) (2 ^ 20 - 1) (2 ^ 20 - 1)).inRange = true ∧ (TripleZ.mk 0 0 1).inRange = true ∧
      (TripleZ.mk (-1) 0 1).inRange = false := by decide

theorem witness_BytesDependOnTheLowBitsOnly :
    (-128 : Int) % 2 ^ 18 = 0x3FF80 % 2 ^ 18 ∧ (-1 : Int) % 2 ^ 20 = 0xFFFFF % 2 ^ 20 ∧
      (2 ^ 20 : Int) % 2 ^ 20 = 0 % 2 ^ 20 := by decide

/-- The eighth address of a block that wraps, and an address outside it. -/
theorem witness_WrDivblkWritesEightRegisters :
    7 < 8 ∧ ((250 : Byte).toNat + 7) % 256 = 1 ∧ ∀ i, i < 8 → 2 ≠ ((250 : Byte).toNat + i) % 256 := by decide

theorem witness_RegisterWriteIsOneBusFrame : ∃ t, exec (.wrReg 3 0xFF) .reset = .next t := ⟨_, rfl⟩

theorem witness_SetupPllProgramsThePll : (193181 : U32) ≠ 0 → (250000 : U32) ≠ 0 := by decide

theorem witness_SetupMsProgramsTheOutput : (0 : U32) ≠ 0 → (1 : U32) ≠ 0 := by decide

theorem witness_EnableOutputsWritesTheInvertedMask :
    Memory.read { State.reset with regs := [(18, 0x80)] }.regs (msCtrl .out2).toNat = some 0x80 ∧
      (0x80 : Byte).getLsbD 7 = true := by decide

theorem witness_ControlBytesHaveFiveValues :
    (∃ t, exec (.init .pf8) .reset = .next t) ∧ (∃ t, exec (.setupMs .out2 .b 8 1 3) .reset = .next t) ∧
      ∃ t es, exec (.setupMs .out2 .b 8 1 3) .reset = .next t ∧ t.trace = State.reset.trace ++ es ∧
        .regWrite (msCtrl .out2) 0x2F ∈ es :=
  ⟨⟨_, rfl⟩, ⟨_, rfl⟩, _, _, rfl, rfl, by decide⟩

theorem witness_ResetAndControlComeAfterTheirBlock :
    (∃ t es, exec (.setupPll .a 25 193181 250000) .reset = .next t ∧ t.trace = State.reset.trace ++ es) ∧
      ∃ t es, exec (.setupMs .out2 .b 8 1 3) .reset = .next t ∧ t.trace = State.reset.trace ++ es :=
  ⟨⟨_, _, rfl, rfl⟩, ⟨_, _, rfl, rfl⟩⟩

theorem witness_PseudoOperationsExpand :
    ((1 : U32) ≠ 0 → (3 : U32) ≠ 0) ∧ State.reset.pc ≠ .settle ∧ State.reset.pc = .reset := by decide

theorem witness_SynthStateTransitions : ∃ t, exec (.setupPll .a 25 193181 250000) .reset = .next t := ⟨_, rfl⟩

theorem witness_EnabledOutputsFollowTheImage :
    (∃ t, exec (.init .pf10) .reset = .next t) ∧
      (∃ t, exec (.changeFreq true) { State.reset with regs := [(18, 0x80)] } = .next t) ∧
      Memory.read { State.reset with regs := [(18, 0x80)] }.regs 18 = some 0x80 :=
  ⟨⟨_, rfl⟩, ⟨_, rfl⟩, rfl⟩

/-- The hypothesis of the clause on BOOT. -/
theorem witness_WiredConstantsAreInRange : State.reset.pc = .reset := rfl

theorem witness_BootProgramsThePllsAndCommits : State.reset.pc = .reset := rfl

theorem witness_ChangeFreqRetunesTheTwoOutputs : (idleState true []).pc ≠ .settle := by decide

/-- One state for each of the three clauses. -/
theorem witness_PollDebouncesTheSwitch :
    (idleState false [false]).pinLevel 0 = false ∧
      ((idleState false [true, false]).pinLevel 0 ≠ false ∧ (idleState false [true, false]).pinLevel 1 = false) ∧
      ((idleState false [true, true]).pinLevel 0 ≠ false ∧ (idleState false [true, true]).pinLevel 1 ≠ false) ∧
      (idleState false [true, true]).pc = .idle ∧ (idleState false [true, true]).committed = some false := by decide

theorem witness_OutOfPlaceOperationsAreRefused :
    (idleState true []).pc ≠ .reset ∧ State.reset.pc = .reset ∧
      ({ State.reset with pc := .idle }.pc ≠ .reset ∧ { State.reset with pc := .idle }.committed = none) ∧
      (settleState true []).pc = .settle := by decide

theorem witness_OnlyBootAndPollMoveTheController :
    Instr.changeFreq true ≠ .boot ∧ Instr.changeFreq true ≠ .poll ∧
      ∃ t, exec (.changeFreq true) (idleState false []) = .next t :=
  ⟨by decide, by decide, ⟨_, rfl⟩⟩

theorem witness_PollsLeaveThePllsUntouched :
    (∃ t, exec .poll (idleState false [true, true]) = .next t) ∧
      ∃ t, exec (.changeFreq true) (idleState false []) = .next t :=
  ⟨⟨_, rfl⟩, ⟨_, rfl⟩⟩

theorem witness_StableTransitionTriggersChangeFreqOnce :
    (idleState false [true, true, true]).port = [] ∧ (idleState false [true, true, true]).pc = .idle ∧
      (idleState false [true, true, true]).committed = some false ∧
      ∀ k, k < 1 + 2 → (idleState false [true, true, true]).pinLevel k = !false := by decide

theorem witness_PollWritesOnlyOnAConfirmedTransition :
    ∃ t es, (idleState false [true, true]).pc = .idle ∧ (idleState false [true, true]).committed = some false ∧
      exec .poll (idleState false [true, true]) = .next t ∧ t.trace = (idleState false [true, true]).trace ++ es :=
  ⟨_, _, rfl, rfl, rfl, rfl⟩

/-- BOOT as the Mode Controller's own step meets the hypotheses of `StepKeepsTheImageCanonical`,
`StepKeepsTheImageMirroringTheTrace` and `StepKeepsTheControllerConsistent`. -/
theorem witness_StepKeeps : ∃ t, step (resetWith [true]) = .next t ∧ Memory.wf (resetWith [true]).regs = true ∧
    ImageMirrorsTrace (resetWith [true]) ∧ ControllerConsistent (resetWith [true]) :=
  ⟨_, rfl, rfl, fun _ => rfl, by simp [ControllerConsistent, resetWith, State.reset]⟩

/-- A SETUP_PLL command, with nothing linked yet. -/
theorem witness_StepKeepsTheConfigurationLinked :
    Linked (commanded 0x00000003D0900002F29D000000001906) ∧
      decode 0x00000003D0900002F29D000000001906 = .ok (.setupPll .a 25 193181 250000) ∧
      ∃ t, step (commanded 0x00000003D0900002F29D000000001906) = .next t := by
  refine ⟨⟨fun p r h => ?_, fun o r h => ?_, by simp [commanded, State.reset], fun c h => ?_, fun m h => ?_⟩,
    by decide, ⟨_, rfl⟩⟩
  · cases p <;> cases h
  · cases o <;> cases h
  · cases h
  · cases h

theorem witness_StepOnlyExtendsTheTrace : ∃ t, step (settleState true [false]) = .next t := ⟨_, rfl⟩

/-- Two states that differ in the records only. -/
theorem witness_EventsDoNotDependOnTheRecords :
    (idleState false [true, true]).pc = { idleState false [true, true] with regs := [(3, 0xFF)] }.pc ∧
      (idleState false [true, true]).committed = { idleState false [true, true] with regs := [(3, 0xFF)] }.committed ∧
      (idleState false [true, true]).pinInput = { idleState false [true, true] with regs := [(3, 0xFF)] }.pinInput ∧
      (idleState false [true, true]).pinReads = { idleState false [true, true] with regs := [(3, 0xFF)] }.pinReads ∧
      ∃ t, exec .poll (idleState false [true, true]) = .next t :=
  ⟨rfl, rfl, rfl, rfl, ⟨_, rfl⟩⟩

theorem witness_OnlyTheWiredAddressesAreWritten :
    (∀ addr val, Instr.enableOutputs true ≠ .wrReg addr val) ∧
      (∀ base p1 p2 p3, Instr.enableOutputs true ≠ .wrDivblk base p1 p2 p3) ∧
      ∃ t es, exec (.enableOutputs true) .reset = .next t ∧ t.trace = State.reset.trace ++ es :=
  ⟨by simp, by simp, _, _, rfl, rfl⟩

/-- A running wired system, as BOOT with the level `true` leaves the fields that `WiredRunning` names. -/
def runningState : State :=
  { State.reset with
    regs := [(3, 0x00), (16, changeFreqCtrl true), (17, changeFreqCtrl true), (18, 0x80)]
    synthState := .configured
    xtal := some Config.bootXtal
    pllA := some { mult := 25, num := 193181, denom := 250000 }
    pllB := some { mult := Config.pllbRatio.mult, num := Config.pllbRatio.num, denom := Config.pllbRatio.denom }
    ms0 := some (changeFreqRecord true)
    ms1 := some (changeFreqRecord true)
    pc := .idle
    committed := some true
    trace := bootPrefix ++ [.pinRead true] ++ changeFreqEvents true }

/-- Both sides of the invariant: a fresh reset, and a running system. -/
theorem witness_StepKeepsTheWiredSystemRunning : WiredInv (resetWith [true]) ∧ WiredInv runningState := by
  have events : ∃ d c, changeFreqEvents true = retuneEvents d c := by
    unfold changeFreqEvents; split <;> exact ⟨_, _, rfl⟩
  obtain ⟨d, c, e⟩ := events
  have written : writesOf runningState.trace = writesOf (bootPrefix ++ [.pinRead true] ++ retuneEvents d c) := by
    rw [← e]; rfl
  refine ⟨⟨rfl, .inl ⟨rfl, rfl⟩⟩, rfl, .inr ⟨by decide, rfl, rfl, rfl, rfl, rfl, ⟨true, rfl, rfl, rfl, rfl, rfl⟩, rfl, rfl,
    ⟨true, [], (List.append_nil _).symm⟩, ?_, ?_⟩⟩
  · rw [written]
    simp [MeetsOrderingDuties, bootPrefix, palPllEvents, blockEvents, initEvents, ntscPllEvents, retuneEvents, writesOf,
      InitFirst, ResetAfterBlock, OutputsOffAround, multisynthAddr, PllsBeforeOutputs, OnceEach, ControlAfterBlock,
      OnlyWired, wiredAddress]
  · rw [written, writesOf_append, List.getLast?_append]
    rfl

/-- The wired system after BOOT and one half of POLL: meets the hypotheses of `WiredSystemMeetsEveryDuty` and of
`WiredSystemStaysConfigured`. -/
theorem witness_WiredRun : ∃ t, wiredRun [false, true] 2 = .next t := ⟨_, rfl⟩

end Sys2Proof.Tests
end

section
/-!
PROOFS. The family of spec/10_state.md: every way an operation can complete, said once as a relation, and what it keeps.
-/

namespace Sys2Proof.Machine

open Sys2Proof.Safety

/-! ### Every way an operation completes -/

/-- `Completes i s es t`: the operation `i`, run in `s`, can complete; it then adds the events `es` and leaves `t`. One
constructor for each operation, POLL's three courses apart; the guards are those under which the operation is not
refused (R82, U6). -/
inductive Completes : Instr → State → List Event → State → Prop where
  | encPll {mult : Byte} {num denom : U32} {s : State} (defined : num ≠ 0 → denom ≠ 0) :
      Completes (.encPll mult num denom) s [] (s.returns (.triple (encodePllZ .binary32 mult num denom).trunc))
  | encMs {div num denom : U32} {s : State} (defined : num ≠ 0 → denom ≠ 0) :
      Completes (.encMs div num denom) s [] (s.returns (.triple (encodeMsZ .binary32 div num denom).trunc))
  | pack {p1 p2 p3 : U32} {s : State} :
      Completes (.pack p1 p2 p3) s [] (s.returns (.block (pack { p1 := p1, p2 := p2, p3 := p3 })))
  | wrReg {addr val : Byte} {s : State} :
      Completes (.wrReg addr val) s [.regWrite addr val] ((s.writeReg addr val).returns .nothing)
  | wrDivblk {base : Byte} {p1 p2 p3 : U32} {s : State} :
      Completes (.wrDivblk base p1 p2 p3) s (blockEvents base (Machine.pack { p1 := p1, p2 := p2, p3 := p3 }))
        ((s.writeBlock base (Machine.pack { p1 := p1, p2 := p2, p3 := p3 })).returns .nothing)
  | init {load : CrystalLoad} {s : State} :
      Completes (.init load) s (initEvents load) ((initSeq load s).returns .nothing)
  | setupPll {p : PllId} {mult : Byte} {num denom : U32} {s : State} (defined : num ≠ 0 → denom ≠ 0) :
      Completes (.setupPll p mult num denom) s
        (blockEvents (pllBase p) (Machine.pack (encodePllZ .binary32 mult num denom).trunc) ++
          [.regWrite 177 (pllResetByte p)])
        ((setupPllWith p { mult := mult, num := num, denom := denom }
          (encodePllZ .binary32 mult num denom).trunc s).returns .nothing)
  | setupMs {o : OutputId} {src : PllId} {div num denom : U32} {s : State} (defined : num ≠ 0 → denom ≠ 0) :
      Completes (.setupMs o src div num denom) s
        (blockEvents (msBase o) (Machine.pack (encodeMsZ .binary32 div num denom).trunc) ++
          [.regWrite (msCtrl o) (ctrlByte src num)])
        ((setupMsWith o { div := div, num := num, denom := denom, src := src, intMode := isInt num }
          (encodeMsZ .binary32 div num denom).trunc s).returns .nothing)
  | enableOutputs {enabled : Bool} {s : State} :
      Completes (.enableOutputs enabled) s [.regWrite 3 (enableMask enabled)] ((enableSeq enabled s).returns .nothing)
  | changeFreq {level : Bool} {s : State} (notSettling : s.pc ≠ .settle) :
      Completes (.changeFreq level) s (changeFreqEvents level) ((changeFreqState level s).returns .nothing)
  | boot {s : State} (inReset : s.pc = .reset) :
      Completes .boot s (bootPrefix ++ [.pinRead (s.pinLevel 0)] ++ changeFreqEvents (s.pinLevel 0)) (bootState s)
  | pollSample {s : State} {c : Bool} (committed : s.committed = some c) (idle : s.pc = .idle)
      (same : s.pinLevel 0 = c) :
      Completes .poll s [.pinRead (s.pinLevel 0)] (sampleState c s)
  | pollConfirm {s : State} {c : Bool} (committed : s.committed = some c) (settling : s.pc = .settle) :
      Completes .poll s ([.delay Config.settleMs, .pinRead (s.pinLevel 0)] ++
        if s.pinLevel 0 = c then [] else changeFreqEvents (!c)) (confirmState c s)
  | pollBoth {s : State} {c : Bool} (committed : s.committed = some c) (idle : s.pc = .idle)
      (moved : s.pinLevel 0 ≠ c) :
      Completes .poll s ([.pinRead (s.pinLevel 0)] ++ ([.delay Config.settleMs, .pinRead (s.pinLevel 1)] ++
        if s.pinLevel 1 = c then [] else changeFreqEvents (!c))) (confirmState c (sampleState c s))

/-- What `exec` answers as a next state is one of the ways to complete. -/
theorem exec_completes {i : Instr} {s t : State} (h : exec i s = .next t) : ∃ es, Completes i s es t := by
  cases i with
  | encPll => obtain ⟨defined, rfl⟩ := exec_encPll_next h; exact ⟨_, .encPll defined⟩
  | encMs => obtain ⟨defined, rfl⟩ := exec_encMs_next h; exact ⟨_, .encMs defined⟩
  | pack => cases h; exact ⟨_, .pack⟩
  | wrReg => cases h; exact ⟨_, .wrReg⟩
  | wrDivblk => cases h; exact ⟨_, .wrDivblk⟩
  | init => cases h; exact ⟨_, .init⟩
  | setupPll => obtain ⟨defined, rfl⟩ := exec_setupPll_next h; exact ⟨_, .setupPll defined⟩
  | setupMs => obtain ⟨defined, rfl⟩ := exec_setupMs_next h; exact ⟨_, .setupMs defined⟩
  | enableOutputs => cases h; exact ⟨_, .enableOutputs⟩
  | changeFreq => obtain ⟨notSettling, rfl⟩ := exec_changeFreq_next h; exact ⟨_, .changeFreq notSettling⟩
  | boot => obtain ⟨inReset, rfl⟩ := exec_boot_next h; exact ⟨_, .boot inReset⟩
  | poll =>
    obtain ⟨c, hc, ⟨idle, same, rfl⟩ | ⟨settling, rfl⟩ | ⟨idle, moved, rfl⟩⟩ := exec_poll_next h
    · exact ⟨_, .pollSample hc idle same⟩
    · exact ⟨_, .pollConfirm hc settling⟩
    · exact ⟨_, .pollBoth hc idle moved⟩

/-! ### The trace and the image -/

@[simp] theorem sampleState_pinLevel (c : Bool) (s : State) (k : Nat) :
    (sampleState c s).pinLevel k = s.pinLevel (k + 1) := by
  simp [sampleState, sampleSeq]

/-- The events of `Completes` are those the trace gains and the image records. -/
theorem Completes.grew {i : Instr} {s t : State} {es : List Event} (h : Completes i s es t) : Grew s t es := by
  cases h with
  | encPll | encMs | pack => exact (Grew.refl s).returns _
  | wrReg => exact (Grew.writeReg ..).returns _
  | wrDivblk => exact (Grew.writeBlock ..).returns _
  | init => exact (Grew.initSeq ..).returns _
  | setupPll => exact (Grew.setupPllWith ..).returns _
  | setupMs => exact (Grew.setupMsWith ..).returns _
  | enableOutputs => exact (Grew.enableSeq ..).returns _
  | changeFreq => exact (Grew.changeFreqState ..).returns _
  | boot => exact .bootState s
  | pollSample => exact .sampleState ..
  | pollConfirm => exact .confirmState ..
  | @pollBoth _ c =>
    have confirm := Grew.confirmState c (sampleState c s)
    rw [sampleState_pinLevel] at confirm
    exact (Grew.sampleState c s).trans confirm

/-- Every step extends the trace, and the image records what the trace gained. -/
theorem step_grew {s t : State} (h : step s = .next t) : ∃ es, Grew s t es := by
  obtain ⟨w, rest, i, -, -, run⟩ | ⟨-, -, rfl⟩ | ⟨-, c, -, ⟨-, rfl⟩ | ⟨-, rfl⟩⟩ := step_next h
  · obtain ⟨es, completes⟩ := exec_completes run
    exact ⟨es, completes.grew.congr rfl rfl rfl rfl⟩
  · exact ⟨_, .bootState s⟩
  · exact ⟨_, .sampleState c s⟩
  · exact ⟨_, .confirmState c s⟩

/-- R14 is kept by whatever records its own events in the image. -/
theorem Grew.imageMirrorsTrace {s t : State} {es : List Event} (h : Grew s t es) (hs : ImageMirrorsTrace s) :
    ImageMirrorsTrace t := fun a => by
  rw [h.regs a, hs a, h.trace, lastWrite_append]

/-! ### The 46 addresses (R14, R31) -/

theorem onlyWired_setupPll (p : PllId) (b : Block) (v : Byte) :
    OnlyWired (writesOf (blockEvents (pllBase p) b ++ [.regWrite 177 v])) = true := by
  cases p <;> rfl

theorem onlyWired_setupMs (o : OutputId) (b : Block) (v : Byte) :
    OnlyWired (writesOf (blockEvents (msBase o) b ++ [.regWrite (msCtrl o) v])) = true := by
  cases o <;> rfl

theorem onlyWired_changeFreqEvents (level : Bool) : OnlyWired (writesOf (changeFreqEvents level)) = true := by
  unfold changeFreqEvents
  split <;> rfl

theorem onlyWired_bootPrefix : OnlyWired (writesOf bootPrefix) = true := rfl

/-- A confirmation writes the registers of CHANGE_FREQ or none. -/
theorem onlyWired_confirm (c level : Bool) :
    OnlyWired (writesOf ([.delay Config.settleMs, .pinRead level] ++
      if level = c then [] else changeFreqEvents (!c))) = true := by
  rw [writesOf_append, OnlyWired_append]
  split
  · rfl
  · exact onlyWired_changeFreqEvents _

/-- Only WR_REG and WR_DIVBLK, whose address is an operand (R92, R93), can write outside the 46 addresses. -/
theorem Completes.onlyWired {i : Instr} {s t : State} {es : List Event} (h : Completes i s es t)
    (notWrReg : ∀ addr val, i ≠ .wrReg addr val) (notWrDivblk : ∀ base p1 p2 p3, i ≠ .wrDivblk base p1 p2 p3) :
    OnlyWired (writesOf es) = true := by
  cases h with
  | encPll | encMs | pack | pollSample => rfl
  | wrReg => exact absurd rfl (notWrReg _ _)
  | wrDivblk => exact absurd rfl (notWrDivblk _ _ _ _)
  | init | enableOutputs => rfl
  | setupPll => exact onlyWired_setupPll ..
  | setupMs => exact onlyWired_setupMs ..
  | changeFreq => exact onlyWired_changeFreqEvents _
  | boot =>
    simp only [writesOf_append, OnlyWired_append, onlyWired_bootPrefix, onlyWired_changeFreqEvents]
    rfl
  | pollConfirm => exact onlyWired_confirm ..
  | pollBoth =>
    rw [writesOf_append, OnlyWired_append, onlyWired_confirm]
    rfl

/-! ### The sequencer (R20, R21, R127) -/

/-- No operation but BOOT and POLL touches the sequencer or the pin. -/
theorem Completes.controller_frame {i : Instr} {s t : State} {es : List Event} (h : Completes i s es t)
    (notBoot : i ≠ .boot) (notPoll : i ≠ .poll) :
    t.pc = s.pc ∧ t.committed = s.committed ∧ t.pinInput = s.pinInput ∧ t.pinReads = s.pinReads := by
  cases h with
  | encPll | encMs | pack | wrReg | wrDivblk | init | enableOutputs | setupMs => exact ⟨rfl, rfl, rfl, rfl⟩
  | setupPll | changeFreq => simp
  | boot => exact absurd rfl notBoot
  | pollSample | pollConfirm | pollBoth => exact absurd rfl notPoll

@[simp] theorem bootState_pc (s : State) : (bootState s).pc = .idle := rfl

@[simp] theorem bootState_committed (s : State) : (bootState s).committed = some (s.pinLevel 0) := by
  simp [bootState]

@[simp] theorem sampleState_committed (c : Bool) (s : State) : (sampleState c s).committed = s.committed := rfl

@[simp] theorem confirmState_pc (c : Bool) (s : State) : (confirmState c s).pc = .idle := rfl

@[simp] theorem confirmState_committed (c : Bool) (s : State) :
    (confirmState c s).committed = if s.pinLevel 0 = c then s.committed else some (!c) := by
  unfold confirmState
  split <;> simp

/-- A committed level outside RESET is consistent (R20, R21). -/
theorem controllerConsistent_of_committed {s : State} {c : Bool} (pc : s.pc ≠ .reset)
    (committed : s.committed = some c) : ControllerConsistent s := by
  simp [ControllerConsistent, pc, committed]

theorem bootState_consistent (s : State) : ControllerConsistent (bootState s) :=
  controllerConsistent_of_committed (by simp) (bootState_committed s)

theorem sampleState_consistent {s : State} {c : Bool} (committed : s.committed = some c) :
    ControllerConsistent (sampleState c s) :=
  controllerConsistent_of_committed (by rw [sampleState_pc]; split <;> simp) committed

theorem confirmState_consistent {s : State} {c : Bool} (committed : s.committed = some c) :
    ControllerConsistent (confirmState c s) := by
  by_cases same : s.pinLevel 0 = c
  · exact controllerConsistent_of_committed (c := c) (by simp) (by simp [same, committed])
  · exact controllerConsistent_of_committed (c := !c) (by simp) (by simp [same])

theorem Completes.controllerConsistent {i : Instr} {s t : State} {es : List Event} (h : Completes i s es t)
    (hs : ControllerConsistent s) : ControllerConsistent t := by
  by_cases isBoot : i = .boot
  · subst isBoot
    cases h with
    | boot => exact bootState_consistent s
  by_cases isPoll : i = .poll
  · subst isPoll
    cases h with
    | pollSample committed => exact sampleState_consistent committed
    | pollConfirm committed => exact confirmState_consistent committed
    | pollBoth committed => exact confirmState_consistent (s := sampleState _ s) committed
  · obtain ⟨pc, committed, -, -⟩ := h.controller_frame isBoot isPoll
    unfold ControllerConsistent at hs ⊢
    rw [pc, committed, hs]

end Sys2Proof.Machine
end

section
/-!
PROOFS. The links of R24 between the configuration and the image: what each sequence writes into the image, and that
each keeps the links.
-/

namespace Sys2Proof.Machine

open Sys2Proof.Safety

/-! ### Where the blocks stand (R103, R105) -/

theorem pllBase_range (p : PllId) : 26 ≤ (pllBase p).toNat ∧ (pllBase p).toNat + 8 ≤ 42 := by
  cases p <;> decide

theorem msBase_range (o : OutputId) : 42 ≤ (msBase o).toNat ∧ (msBase o).toNat + 8 ≤ 66 := by
  cases o <;> decide

theorem msCtrl_range (o : OutputId) : 16 ≤ (msCtrl o).toNat ∧ (msCtrl o).toNat ≤ 18 := by
  cases o <;> decide

/-- The blocks of the two PLLs do not overlap. -/
theorem pllBase_apart {p q : PllId} (h : p ≠ q) :
    (pllBase p).toNat + 8 ≤ (pllBase q).toNat ∨ (pllBase q).toNat + 8 ≤ (pllBase p).toNat := by
  revert h
  cases p <;> cases q <;> decide

/-- The blocks of two outputs do not overlap. -/
theorem msBase_apart {o q : OutputId} (h : o ≠ q) :
    (msBase o).toNat + 8 ≤ (msBase q).toNat ∨ (msBase q).toNat + 8 ≤ (msBase o).toNat := by
  revert h
  cases o <;> cases q <;> decide

theorem msCtrl_apart {o q : OutputId} (h : o ≠ q) : (msCtrl o).toNat ≠ (msCtrl q).toNat := by
  revert h
  cases o <;> cases q <;> decide

/-! ### A divider block and the register after it, in the image -/

section BlockThenRegister

variable {m m' : Memory} {base addr val : Byte} {b : Block}

/-- The register written last holds its byte. -/
theorem read_lastRegister {es : List Event} (h : Recorded m m' (es ++ [.regWrite addr val])) :
    Memory.read m' addr.toNat = some val := by
  rw [h, lastWrite_append]
  simp [lastWrite]

/-- The block is held, if the register after it stands outside it. -/
theorem blockHeld_of_recorded (h : Recorded m m' (blockEvents base b ++ [.regWrite addr val]))
    (noWrap : base.toNat + 8 ≤ 256) (outside : addr.toNat < base.toNat ∨ base.toNat + 8 ≤ addr.toNat) :
    BlockHeld m' base b := fun i hi => by
  have notLast : addr.toNat ≠ base.toNat + i := by omega
  have inBlock : base.toNat ≤ base.toNat + i ∧ base.toNat + i < base.toNat + 8 := by omega
  have held : (b.toList[i]?).isSome := by simpa [Block.toList] using hi
  obtain ⟨v, hv⟩ := Option.isSome_iff_exists.1 held
  rw [h, lastWrite_append, lastWrite_blockEvents base b noWrap, if_pos inBlock, Nat.add_sub_cancel_left, hv]
  simp [lastWrite, notLast]

/-- Outside the block and the register after it nothing changes. -/
theorem read_outside (h : Recorded m m' (blockEvents base b ++ [.regWrite addr val]))
    (noWrap : base.toNat + 8 ≤ 256) {a : Nat} (notLast : a ≠ addr.toNat)
    (outside : a < base.toNat ∨ base.toNat + 8 ≤ a) : Memory.read m' a = Memory.read m a := by
  have notInBlock : ¬(base.toNat ≤ a ∧ a < base.toNat + 8) := by omega
  rw [h, lastWrite_append, lastWrite_blockEvents base b noWrap, if_neg notInBlock]
  simp [lastWrite, notLast.symm]

end BlockThenRegister

/-! ### The records as functions -/

theorem setupPllWith_pll (p q : PllId) (r : PllRecord) (t : Triple) (s : State) :
    (setupPllWith p r t s).pll q = if q = p then some r else s.pll q := by
  cases p <;> cases q <;> simp [State.pll]

theorem setupPllWith_ms (p : PllId) (r : PllRecord) (t : Triple) (s : State) : (setupPllWith p r t s).ms = s.ms := by
  funext o
  cases o <;> simp [State.ms]

theorem setupMsWith_ms (o q : OutputId) (r : MsRecord) (t : Triple) (s : State) :
    (setupMsWith o r t s).ms q = if q = o then some r else s.ms q := by
  cases o <;> cases q <;> rfl

/-- The rule R101 for `synth.state` is kept by SETUP_PLL, which only adds a record. -/
theorem setupPllWith_configured {s : State} (h : s.synthState = .configured ↔ s.pllA.isSome ∧ s.pllB.isSome)
    (p : PllId) (r : PllRecord) (t : Triple) :
    (setupPllWith p r t s).synthState = .configured ↔
      (setupPllWith p r t s).pllA.isSome ∧ (setupPllWith p r t s).pllB.isSome := by
  cases p with
  | a => cases other : s.pllB.isSome <;> simp_all
  | b => cases other : s.pllA.isSome <;> simp_all

end Sys2Proof.Machine

namespace Sys2Proof.Safety

open Sys2Proof.Machine

/-! ### Every sequence keeps the links -/

/-- A block is held as long as its eight addresses read the same. -/
theorem BlockHeld.frame {m m' : Memory} {base : Byte} {b : Block} (h : BlockHeld m base b)
    (same : ∀ i : Nat, i < 8 → Memory.read m' (base.toNat + i) = Memory.read m (base.toNat + i)) :
    BlockHeld m' base b := fun i hi => by
  rw [same i hi, h i hi]

/-- The links speak of the image, the records, `synth.state` and `synth.xtal` alone. -/
theorem Linked.congr {s t : State} (h : Linked s) (regs : t.regs = s.regs) (pll : t.pll = s.pll) (ms : t.ms = s.ms)
    (synthState : t.synthState = s.synthState) (xtal : t.xtal = s.xtal) : Linked t where
  pllHeld p r hr := by rw [regs]; exact h.pllHeld p r (pll ▸ hr)
  msHeld o r hr := by rw [regs]; exact h.msHeld o r (ms ▸ hr)
  configured := by
    have pllA : t.pllA = s.pllA := congrFun pll .a
    have pllB : t.pllB = s.pllB := congrFun pll .b
    rw [synthState, pllA, pllB]
    exact h.configured
  xtalHeld c hc := by rw [regs]; exact h.xtalHeld c (xtal ▸ hc)
  maskHeld m hm := h.maskHeld m (regs ▸ hm)

theorem Linked.returns {s : State} (h : Linked s) (r : OpResult) : Linked (s.returns r) :=
  h.congr rfl rfl rfl rfl rfl

theorem Linked.setPort {s : State} (h : Linked s) (p : List CmdWord) : Linked (s.setPort p) :=
  h.congr rfl rfl rfl rfl rfl

theorem Linked.setPc {s : State} (h : Linked s) (target : Pc) : Linked (s.setPc target) :=
  h.congr rfl rfl rfl rfl rfl

theorem Linked.commit {s : State} (h : Linked s) (level : Bool) : Linked (s.commit level) :=
  h.congr rfl rfl rfl rfl rfl

theorem Linked.readPin {s : State} (h : Linked s) : Linked s.readPin :=
  h.congr rfl rfl rfl rfl rfl

theorem Linked.delay {s : State} (h : Linked s) : Linked s.delay :=
  h.congr rfl rfl rfl rfl rfl

/-- INIT establishes the links from any state: it clears the records and writes the mask and the crystal load. -/
theorem linked_initSeq (load : CrystalLoad) (s : State) : Linked (initSeq load s) where
  pllHeld p r hr := by cases p <;> cases hr
  msHeld o r hr := by cases o <;> cases hr
  configured := by simp
  xtalHeld c hc := by
    cases hc
    rw [(Grew.initSeq load s).regs 183]
    rfl
  maskHeld m hm := by
    rw [(Grew.initSeq load s).regs 3] at hm
    exact .inr (Option.some.inj hm).symm

/-- SETUP_PLL writes the block of the record it leaves, and no byte of another link but that of register 177. -/
theorem Linked.setupPll {s : State} (h : Linked s) (p : PllId) (r : PllRecord) :
    Linked (setupPllWith p r (encodePllZ .binary32 r.mult r.num r.denom).trunc s) := by
  have range := pllBase_range p
  have written := (Grew.setupPllWith p r (encodePllZ .binary32 r.mult r.num r.denom).trunc s).regs
  have frame := fun {a : Nat} => read_outside (a := a) written (by omega)
  have reset : (177 : Byte).toNat = 177 := rfl
  refine ⟨fun q r' hr => ?_, fun o r' hr => ?_, setupPllWith_configured h.configured .., fun c hc => ?_,
    fun m hm => ?_⟩
  case refine_1 =>
    refine ⟨?_, by rw [← reset, read_lastRegister written]; rfl⟩
    rw [setupPllWith_pll] at hr
    by_cases same : q = p
    · rw [if_pos same] at hr
      cases hr
      subst same
      exact blockHeld_of_recorded written (by omega) (by omega)
    · rw [if_neg same] at hr
      have apart := pllBase_apart same
      have range' := pllBase_range q
      exact (h.pllHeld q r' hr).1.frame fun i hi => frame (by omega) (by omega)
  case refine_2 =>
    rw [setupPllWith_ms] at hr
    obtain ⟨block, intMode, ctrl⟩ := h.msHeld o r' hr
    have blockRange := msBase_range o
    have ctrlRange := msCtrl_range o
    exact ⟨block.frame fun i hi => frame (by omega) (by omega), intMode,
      (frame (by omega) (by omega)).trans ctrl⟩
  case refine_3 =>
    rw [frame (by omega) (by omega)]
    exact h.xtalHeld c (by simpa using hc)
  case refine_4 =>
    rw [frame (by omega) (by omega)] at hm
    exact h.maskHeld m hm

/-- SETUP_MS writes the block and the control byte of the record it leaves, and no byte of another link. -/
theorem Linked.setupMs {s : State} (h : Linked s) (o : OutputId) (r : MsRecord) (intMode : r.intMode = isInt r.num) :
    Linked (setupMsWith o r (encodeMsZ .binary32 r.div r.num r.denom).trunc s) := by
  have range := msBase_range o
  have ctrlRange := msCtrl_range o
  have written := (Grew.setupMsWith o r (encodeMsZ .binary32 r.div r.num r.denom).trunc s).regs
  have frame := fun {a : Nat} => read_outside (a := a) written (by omega)
  refine ⟨fun p r' hr => ?_, fun q r' hr => ?_, h.configured, fun c hc => ?_, fun m hm => ?_⟩
  case refine_1 =>
    obtain ⟨block, reset⟩ := h.pllHeld p r' hr
    have blockRange := pllBase_range p
    exact ⟨block.frame fun i hi => frame (by omega) (by omega), by rwa [frame (by omega) (by omega)]⟩
  case refine_2 =>
    rw [setupMsWith_ms] at hr
    by_cases same : q = o
    · rw [if_pos same] at hr
      cases hr
      subst same
      refine ⟨blockHeld_of_recorded written (by omega) (by omega), intMode, ?_⟩
      rw [read_lastRegister written, intMode]
      rfl
    · rw [if_neg same] at hr
      obtain ⟨block, intMode', ctrl⟩ := h.msHeld q r' hr
      have blockRange := msBase_range q
      have ctrlRange' := msCtrl_range q
      have blocksApart := msBase_apart same
      have ctrlsApart := msCtrl_apart same
      exact ⟨block.frame fun i hi => frame (by omega) (by omega), intMode',
        (frame (by omega) (by omega)).trans ctrl⟩
  case refine_3 =>
    rw [frame (by omega) (by omega)]
    exact h.xtalHeld c hc
  case refine_4 =>
    rw [frame (by omega) (by omega)] at hm
    exact h.maskHeld m hm

/-- ENABLE_OUTPUTS writes register 3 alone, and one of its two bytes. -/
theorem Linked.enable {s : State} (h : Linked s) (enabled : Bool) : Linked (enableSeq enabled s) := by
  have written := (Grew.enableSeq enabled s).regs
  have frame {a : Nat} (notMask : a ≠ 3) : Memory.read (enableSeq enabled s).regs a = Memory.read s.regs a := by
    rw [written a]
    simp [lastWrite, notMask.symm]
  refine ⟨fun p r hr => ?_, fun o r hr => ?_, h.configured, fun c hc => ?_, fun m hm => ?_⟩
  case refine_1 =>
    obtain ⟨block, reset⟩ := h.pllHeld p r hr
    have range := pllBase_range p
    exact ⟨block.frame fun i hi => frame (by omega), by rwa [frame (by omega)]⟩
  case refine_2 =>
    obtain ⟨block, intMode, ctrl⟩ := h.msHeld o r hr
    have range := msBase_range o
    have ctrlRange := msCtrl_range o
    exact ⟨block.frame fun i hi => frame (by omega), intMode, (frame (by omega)).trans ctrl⟩
  case refine_3 =>
    rw [frame (by omega)]
    exact h.xtalHeld c hc
  case refine_4 =>
    rw [written 3] at hm
    cases hm
    cases enabled
    · exact .inr rfl
    · exact .inl rfl

/-- CHANGE_FREQ is a sequence of ENABLE_OUTPUTS and SETUP_MS (R126). -/
theorem Linked.changeFreq {s : State} (h : Linked s) (level : Bool) : Linked (changeFreqState level s) := by
  unfold changeFreqState
  rw [← changeFreqRecord_eq]
  exact (((h.enable false).setupMs .out0 _ rfl).setupMs .out1 _ rfl).enable true

/-- BOOT's PLL set-ups stand on INIT (R122). -/
theorem linked_bootPlls (s : State) : Linked (bootPlls s) :=
  ((linked_initSeq Config.bootXtal _).setupPll .a { mult := 25, num := 193181, denom := 250000 }).setupPll .b
    { mult := Config.pllbRatio.mult, num := Config.pllbRatio.num, denom := Config.pllbRatio.denom }

theorem linked_bootState (s : State) : Linked (bootState s) :=
  ((((linked_bootPlls s).readPin.commit _).changeFreq _).setPc .idle).returns .nothing

theorem Linked.sample {s : State} (h : Linked s) (c : Bool) : Linked (sampleState c s) :=
  (h.readPin.setPc _).returns .nothing

theorem Linked.confirm {s : State} (h : Linked s) (c : Bool) : Linked (confirmState c s) := by
  unfold confirmState
  split
  · exact (h.delay.readPin.setPc .idle).returns .nothing
  · exact (((h.delay.readPin.commit (!c)).changeFreq (!c)).setPc .idle).returns .nothing

end Sys2Proof.Safety

namespace Sys2Proof.Machine

open Sys2Proof.Safety

/-- Only WR_REG and WR_DIVBLK can break the links (R92). -/
theorem Completes.linked {i : Instr} {s t : State} {es : List Event} (h : Completes i s es t) (hs : Linked s)
    (notWrReg : ∀ addr val, i ≠ .wrReg addr val) (notWrDivblk : ∀ base p1 p2 p3, i ≠ .wrDivblk base p1 p2 p3) :
    Linked t := by
  cases h with
  | encPll | encMs | pack => exact hs.returns _
  | wrReg => exact absurd rfl (notWrReg _ _)
  | wrDivblk => exact absurd rfl (notWrDivblk _ _ _ _)
  | init => exact (linked_initSeq ..).returns _
  | setupPll => exact (hs.setupPll _ { mult := _, num := _, denom := _ }).returns _
  | setupMs => exact (hs.setupMs _ { div := _, num := _, denom := _, src := _, intMode := _ } rfl).returns _
  | enableOutputs => exact (hs.enable _).returns _
  | changeFreq => exact (hs.changeFreq _).returns _
  | boot => exact linked_bootState s
  | pollSample => exact hs.sample _
  | pollConfirm => exact hs.confirm _
  | pollBoth => exact (hs.sample _).confirm _

/-! ### Which outputs are enabled (R27) -/

@[simp] theorem State.returns_outputEnabled (s : State) (r : OpResult) (o : OutputId) :
    (s.returns r).outputEnabled o = s.outputEnabled o := rfl

/-- R27 where both registers were written. -/
theorem outputEnabled_of_read {s : State} {o : OutputId} {m c : Byte} (mask : Memory.read s.regs 3 = some m)
    (ctrl : Memory.read s.regs (msCtrl o).toNat = some c) :
    s.outputEnabled o = (!m.getLsbD (outputBit o) && !c.getLsbD 7) := by
  have mask' : Memory.read s.regs enableMaskAddr.toNat = some m := mask
  simp only [State.outputEnabled, mask', ctrl]

theorem read_initSeq_mask (load : CrystalLoad) (s : State) : Memory.read (initSeq load s).regs 3 = some 0xFF := by
  rw [(Grew.initSeq load s).regs 3]
  rfl

theorem read_initSeq_ctrl (load : CrystalLoad) (s : State) (o : OutputId) :
    Memory.read (initSeq load s).regs (msCtrl o).toNat = some 0x80 := by
  rw [(Grew.initSeq load s).regs]
  cases o <;> rfl

/-- INIT masks every output off. -/
theorem outputEnabled_initSeq (load : CrystalLoad) (s : State) (o : OutputId) :
    (initSeq load s).outputEnabled o = false := by
  rw [outputEnabled_of_read (read_initSeq_mask load s) (read_initSeq_ctrl load s o)]
  cases o <;> rfl

/-- CHANGE_FREQ opens the enable mask last. -/
theorem read_changeFreqState_mask (level : Bool) (s : State) :
    Memory.read (changeFreqState level s).regs 3 = some 0x00 := by
  rw [(Grew.changeFreqState level s).regs 3]
  unfold changeFreqEvents
  split <;> rfl

/-- CHANGE_FREQ gives outputs 0 and 1 the control byte of the level's mode. -/
theorem read_changeFreqState_ctrl (level : Bool) (s : State) {o : OutputId} (tuned : o ≠ .out2) :
    Memory.read (changeFreqState level s).regs (msCtrl o).toNat = some (changeFreqCtrl level) := by
  rw [(Grew.changeFreqState level s).regs]
  unfold changeFreqEvents changeFreqCtrl
  cases o with
  | out0 | out1 => split <;> rfl
  | out2 => exact absurd rfl tuned

/-- CHANGE_FREQ leaves the control register of output 2 alone. -/
theorem read_changeFreqState_ctrl2 (level : Bool) (s : State) :
    Memory.read (changeFreqState level s).regs 18 = Memory.read s.regs 18 := by
  rw [(Grew.changeFreqState level s).regs 18]
  unfold changeFreqEvents
  split <;> rfl

/-- After CHANGE_FREQ the two outputs it retunes are enabled: neither of its control bytes powers down. -/
theorem outputEnabled_changeFreqState (level : Bool) (s : State) {o : OutputId} (tuned : o ≠ .out2) :
    (changeFreqState level s).outputEnabled o = true := by
  rw [outputEnabled_of_read (read_changeFreqState_mask level s) (read_changeFreqState_ctrl level s tuned)]
  unfold changeFreqCtrl
  split <;> cases o <;> rfl

/-- CHANGE_FREQ leaves output 2 off if it was powered down. -/
theorem outputEnabled_changeFreqState_out2 (level : Bool) {s : State} (off : Memory.read s.regs 18 = some 0x80) :
    (changeFreqState level s).outputEnabled .out2 = false := by
  have ctrl := (read_changeFreqState_ctrl2 level s).trans off
  rw [outputEnabled_of_read (o := .out2) (read_changeFreqState_mask level s) ctrl]
  rfl

end Sys2Proof.Machine
end

section
/-!
PROOFS. The statements of the family of spec/10_state.md.
-/

namespace Sys2Proof.Proofs

open Sys2Proof.Machine Sys2Proof.Safety

/-- Settles O51: a step's own events are what the image records (`step_grew`). -/
theorem stepKeepsTheImageMirroringTheTrace : Obligations.StepKeepsTheImageMirroringTheTrace := by
  intro s t hs h
  obtain ⟨es, grew⟩ := step_grew h
  exact grew.imageMirrorsTrace hs

/-- Settles O52: BOOT and POLL leave a committed level outside RESET, and no other operation touches either. -/
theorem stepKeepsTheControllerConsistent : Obligations.StepKeepsTheControllerConsistent := by
  intro s t hs h
  obtain ⟨w, rest, i, -, -, run⟩ | ⟨-, -, rfl⟩ | ⟨-, c, committed, ⟨-, rfl⟩ | ⟨-, rfl⟩⟩ := step_next h
  · obtain ⟨es, completes⟩ := exec_completes run
    exact completes.controllerConsistent hs
  · exact bootState_consistent s
  · exact sampleState_consistent committed
  · exact confirmState_consistent committed

/-- Settles O53: each sequence keeps every link (`Completes.linked`), and the Mode Controller's own steps are such
sequences. -/
theorem stepKeepsTheConfigurationLinked : Obligations.StepKeepsTheConfigurationLinked := by
  intro s t hs bare h
  obtain ⟨w, rest, i, port, decoded, run⟩ | ⟨-, -, rfl⟩ | ⟨-, c, -, ⟨-, rfl⟩ | ⟨-, rfl⟩⟩ := step_next h
  · obtain ⟨es, completes⟩ := exec_completes run
    obtain ⟨notWrReg, notWrDivblk⟩ := bare w rest i port decoded
    exact completes.linked (hs.setPort rest) notWrReg notWrDivblk
  · exact linked_bootState s
  · exact hs.sample c
  · exact hs.confirm c

/-- Settles O37: the bytes INIT and CHANGE_FREQ leave in register 3 and the control registers decide. -/
theorem enabledOutputsFollowTheImage : Obligations.EnabledOutputsFollowTheImage := by
  refine ⟨fun load s t o h => ?_, fun level s t h => ?_⟩
  · obtain ⟨es, completes⟩ := exec_completes h
    cases completes with
    | init => rw [State.returns_outputEnabled, outputEnabled_initSeq]
  · obtain ⟨-, rfl⟩ := exec_changeFreq_next h
    simp only [State.returns_outputEnabled]
    exact ⟨outputEnabled_changeFreqState level s (by decide), outputEnabled_changeFreqState level s (by decide),
      outputEnabled_changeFreqState_out2 level⟩

/-- Settles O44: each other operation leaves the sequencer and the pin input as they were. -/
theorem onlyBootAndPollMoveTheController : Obligations.OnlyBootAndPollMoveTheController := by
  intro i s t notBoot notPoll h
  obtain ⟨es, completes⟩ := exec_completes h
  exact completes.controller_frame notBoot notPoll

/-- Settles O54: a step's events extend the trace and are recorded (`step_grew`). -/
theorem stepOnlyExtendsTheTrace : Obligations.StepOnlyExtendsTheTrace := by
  intro s t h
  obtain ⟨es, grew⟩ := step_grew h
  exact ⟨es, grew.trace, grew.regs⟩

/-- Settles O56: the events of an operation are determined by the trace, and each operation's addresses are listed. -/
theorem onlyTheWiredAddressesAreWritten : Obligations.OnlyTheWiredAddressesAreWritten := by
  intro i s t es notWrReg notWrDivblk h added
  obtain ⟨es', completes⟩ := exec_completes h
  have same : es = es' := List.append_cancel_left (added.symm.trans completes.grew.trace)
  rw [same]
  exact completes.onlyWired notWrReg notWrDivblk

/-- Settles O48: each field of `State.reset` is read off. -/
theorem resetLeavesTheSpecsValues : Obligations.ResetLeavesTheSpecsValues :=
  ⟨rfl, rfl, fun p => by cases p <;> rfl, fun o => by cases o <;> rfl, fun _ => rfl, rfl, rfl, rfl⟩

/-- At reset nothing is recorded, so nothing has to be held. -/
theorem linked_reset : Linked State.reset where
  pllHeld p r hr := by cases p <;> cases hr
  msHeld o r hr := by cases o <;> cases hr
  configured := by simp [State.reset]
  xtalHeld c hc := by cases hc
  maskHeld m hm := by cases hm

/-- Settles O49: nothing was written, nothing is committed and BOOT is still to come. -/
theorem resetMeetsTheInvariants : Obligations.ResetMeetsTheInvariants :=
  ⟨rfl, fun _ => rfl, by simp [ControllerConsistent, State.reset], linked_reset, rfl, .inl ⟨rfl, rfl⟩⟩

end Sys2Proof.Proofs
end

section
/-!
PROOFS. The family of spec/20_memory.md: that every write keeps the image canonical, that what an operation does depends
on the sequencer and the pin reads alone, and the bus frame below one register write.
-/

namespace Sys2Proof.Safety

open Sys2Proof.Machine

/-! ### The canonical image (R30, log 13) -/

/-- The image of the state is in the model's canonical form. -/
def ImageCanonical (s : State) : Prop :=
  Memory.wf s.regs = true

/-- States with the same image are canonical together. -/
theorem ImageCanonical.congr {s t : State} (h : ImageCanonical s) (regs : t.regs = s.regs) : ImageCanonical t := by
  unfold ImageCanonical
  rw [regs]
  exact h

theorem ImageCanonical.returns {s : State} (h : ImageCanonical s) (r : OpResult) : ImageCanonical (s.returns r) :=
  h.congr rfl

theorem ImageCanonical.setPort {s : State} (h : ImageCanonical s) (p : List CmdWord) : ImageCanonical (s.setPort p) :=
  h.congr rfl

theorem ImageCanonical.setPc {s : State} (h : ImageCanonical s) (target : Pc) : ImageCanonical (s.setPc target) :=
  h.congr rfl

theorem ImageCanonical.commit {s : State} (h : ImageCanonical s) (level : Bool) : ImageCanonical (s.commit level) :=
  h.congr rfl

theorem ImageCanonical.readPin {s : State} (h : ImageCanonical s) : ImageCanonical s.readPin :=
  h.congr rfl

theorem ImageCanonical.configurePin {s : State} (h : ImageCanonical s) : ImageCanonical s.configurePin :=
  h.congr rfl

theorem ImageCanonical.delay {s : State} (h : ImageCanonical s) : ImageCanonical s.delay :=
  h.congr rfl

/-- A register address is a byte, so a register write stays below 256. -/
theorem ImageCanonical.writeReg {s : State} (h : ImageCanonical s) (addr val : Byte) :
    ImageCanonical (s.writeReg addr val) :=
  Memory.wf_write h addr.isLt

theorem ImageCanonical.writeBytes {s : State} (h : ImageCanonical s) (base : Byte) (vs : List Byte) :
    ImageCanonical (s.writeBytes base vs) := by
  induction vs generalizing s base with
  | nil => exact h
  | cons v vs ih => exact ih (h.writeReg base v) (base + 1)

theorem ImageCanonical.writeBlock {s : State} (h : ImageCanonical s) (base : Byte) (b : Block) :
    ImageCanonical (s.writeBlock base b) :=
  h.writeBytes base b.toList

theorem ImageCanonical.init {s : State} (h : ImageCanonical s) (load : CrystalLoad) :
    ImageCanonical (initSeq load s) :=
  (((((h.writeReg _ _).writeReg _ _).writeReg _ _).writeReg _ _).writeReg _ _).congr rfl

theorem ImageCanonical.setupPll {s : State} (h : ImageCanonical s) (p : PllId) (r : PllRecord) (t : Triple) :
    ImageCanonical (setupPllWith p r t s) :=
  ((h.writeBlock (pllBase p) (pack t)).writeReg pllResetAddr (pllResetByte p)).congr (State.configureIfBoth_regs _)

theorem ImageCanonical.setupMs {s : State} (h : ImageCanonical s) (o : OutputId) (r : MsRecord) (t : Triple) :
    ImageCanonical (setupMsWith o r t s) :=
  ((h.writeBlock (msBase o) (pack t)).writeReg (msCtrl o) (ctrlByte r.src r.num)).congr rfl

theorem ImageCanonical.enable {s : State} (h : ImageCanonical s) (enabled : Bool) :
    ImageCanonical (enableSeq enabled s) :=
  h.writeReg _ _

theorem ImageCanonical.changeFreq {s : State} (h : ImageCanonical s) (level : Bool) :
    ImageCanonical (changeFreqState level s) := by
  unfold changeFreqState
  exact (((h.enable false).setupMs .out0 _ _).setupMs .out1 _ _).enable true

theorem ImageCanonical.bootPlls {s : State} (h : ImageCanonical s) : ImageCanonical (bootPlls s) := by
  unfold Machine.bootPlls
  exact ((h.configurePin.init _).setupPll .a _ _).setupPll .b _ _

theorem ImageCanonical.boot {s : State} (h : ImageCanonical s) : ImageCanonical (bootState s) :=
  (((h.bootPlls.readPin.commit _).changeFreq _).setPc .idle).returns .nothing

theorem ImageCanonical.sample {s : State} (h : ImageCanonical s) (c : Bool) : ImageCanonical (sampleState c s) :=
  (h.readPin.setPc _).returns .nothing

theorem ImageCanonical.confirm {s : State} (h : ImageCanonical s) (c : Bool) : ImageCanonical (confirmState c s) := by
  unfold confirmState
  split
  · exact (h.delay.readPin.setPc .idle).returns .nothing
  · exact (((h.delay.readPin.commit (!c)).changeFreq (!c)).setPc .idle).returns .nothing

end Sys2Proof.Safety

namespace Sys2Proof.Machine

open Sys2Proof.Safety

/-- Every operation, WR_REG and WR_DIVBLK among them, keeps the image canonical. -/
theorem Completes.imageCanonical {i : Instr} {s t : State} {es : List Event} (h : Completes i s es t)
    (hs : ImageCanonical s) : ImageCanonical t := by
  cases h with
  | encPll | encMs | pack => exact hs.returns _
  | wrReg => exact (hs.writeReg _ _).returns _
  | wrDivblk => exact (hs.writeBlock _ _).returns _
  | init => exact (hs.init _).returns _
  | setupPll => exact (hs.setupPll _ _ _).returns _
  | setupMs => exact (hs.setupMs _ _ _).returns _
  | enableOutputs => exact (hs.enable _).returns _
  | changeFreq => exact (hs.changeFreq _).returns _
  | boot => exact hs.boot
  | pollSample => exact hs.sample _
  | pollConfirm => exact hs.confirm _
  | pollBoth => exact (hs.sample _).confirm _

/-! ### POLL where it is not refused (R124, R125) -/

theorem pollHalf_idle {s : State} {c : Bool} (committed : s.committed = some c) (idle : s.pc = .idle) :
    pollHalf Config.specified s = .next (sampleState c s) := by
  rw [pollHalf_specified committed, idle]
  rfl

theorem pollHalf_settle {s : State} {c : Bool} (committed : s.committed = some c) (settling : s.pc = .settle) :
    pollHalf Config.specified s = .next (confirmState c s) := by
  rw [pollHalf_specified committed, settling]
  rfl

/-- The sample sees the committed level: the command ends with its first half. -/
theorem exec_poll_sample {s : State} {c : Bool} (committed : s.committed = some c) (idle : s.pc = .idle)
    (same : s.pinLevel 0 = c) : exec .poll s = .next (sampleState c s) := by
  have stays : (sampleState c s).pc ≠ .settle := by simp [sampleState_pc, same]
  simp only [exec, execPoll, pollOp, idle, pollHalf_idle committed idle, andThen_next, if_neg stays]

/-- A command issued while settling is a confirmation alone (log 11). -/
theorem exec_poll_confirm {s : State} {c : Bool} (committed : s.committed = some c) (settling : s.pc = .settle) :
    exec .poll s = .next (confirmState c s) := by
  simp only [exec, execPoll, pollOp, settling, pollHalf_settle committed settling]

/-- The sample sees the other level: the command goes on to the confirmation. -/
theorem exec_poll_both {s : State} {c : Bool} (committed : s.committed = some c) (idle : s.pc = .idle)
    (moved : s.pinLevel 0 ≠ c) : exec .poll s = .next (confirmState c (sampleState c s)) := by
  have settles : (sampleState c s).pc = .settle := by simp [sampleState_pc, moved]
  have confirm := pollHalf_settle (s := sampleState c s) committed settles
  simp only [exec, execPoll, pollOp, idle, pollHalf_idle committed idle, andThen_next, if_pos settles, confirm]

/-- Each way to complete is what `exec` answers: the converse of `exec_completes`. -/
theorem Completes.exec_eq {i : Instr} {s t : State} {es : List Event} (h : Completes i s es t) :
    exec i s = .next t := by
  cases h with
  | encPll defined => exact exec_encPll_eq _ defined s
  | encMs defined => exact exec_encMs_eq _ defined s
  | pack | wrReg | wrDivblk | init | enableOutputs => rfl
  | setupPll defined => exact exec_setupPll_eq _ _ defined s
  | setupMs defined => exact exec_setupMs_eq _ _ _ defined s
  | changeFreq notSettling => exact exec_changeFreq_eq _ notSettling
  | boot inReset => exact exec_boot_eq inReset
  | pollSample committed idle same => exact exec_poll_sample committed idle same
  | pollConfirm committed settling => exact exec_poll_confirm committed settling
  | pollBoth committed idle moved => exact exec_poll_both committed idle moved

/-! ### What an operation depends on (R40, R108) -/

/-- The two states agree in the sequencer and in the coming pin reads; the image, the records, the trace, the port and
the result may differ. -/
structure SameController (s s' : State) : Prop where
  pc : s.pc = s'.pc
  committed : s.committed = s'.committed
  pinInput : s.pinInput = s'.pinInput
  pinReads : s.pinReads = s'.pinReads

theorem SameController.pinLevel {s s' : State} (h : SameController s s') (k : Nat) :
    s.pinLevel k = s'.pinLevel k := by
  simp only [State.pinLevel, h.pinInput, h.pinReads]

/-- The guards and the events of every way to complete read no more than `SameController` names, and neither does what
becomes of the sequencer. -/
theorem Completes.of_sameController {i : Instr} {s s' t : State} {es : List Event} (h : Completes i s es t)
    (same : SameController s s') :
    ∃ t', Completes i s' es t' ∧ t.pc = t'.pc ∧ t.committed = t'.committed := by
  cases h with
  | encPll defined => exact ⟨_, .encPll defined, same.pc, same.committed⟩
  | encMs defined => exact ⟨_, .encMs defined, same.pc, same.committed⟩
  | pack => exact ⟨_, .pack, same.pc, same.committed⟩
  | wrReg => exact ⟨_, .wrReg, same.pc, same.committed⟩
  | wrDivblk => exact ⟨_, .wrDivblk, same.pc, same.committed⟩
  | init => exact ⟨_, .init, same.pc, same.committed⟩
  | setupPll defined => exact ⟨_, .setupPll defined, by simp [same.pc], by simp [same.committed]⟩
  | setupMs defined => exact ⟨_, .setupMs defined, same.pc, same.committed⟩
  | enableOutputs => exact ⟨_, .enableOutputs, same.pc, same.committed⟩
  | changeFreq notSettling =>
    exact ⟨_, .changeFreq (same.pc ▸ notSettling), by simp [same.pc], by simp [same.committed]⟩
  | boot inReset =>
    rw [same.pinLevel]
    exact ⟨_, .boot (same.pc ▸ inReset), by simp, by simp [same.pinLevel]⟩
  | pollSample committed idle unmoved =>
    rw [same.pinLevel] at unmoved ⊢
    exact ⟨_, .pollSample (same.committed ▸ committed) (same.pc ▸ idle) unmoved,
      by simp [sampleState_pc, same.pinLevel], same.committed⟩
  | pollConfirm committed settling =>
    rw [same.pinLevel]
    exact ⟨_, .pollConfirm (same.committed ▸ committed) (same.pc ▸ settling), by simp,
      by simp [same.pinLevel, same.committed]⟩
  | pollBoth committed idle moved =>
    rw [same.pinLevel] at moved
    rw [same.pinLevel, same.pinLevel]
    exact ⟨_, .pollBoth (same.committed ▸ committed) (same.pc ▸ idle) moved, by simp,
      by simp [same.pinLevel, same.committed]⟩

/-! ### Below the register write (R34, R56, R150) -/

/-- The platform calls an operation adds are those of its events. -/
theorem Grew.platformCalls {s t : State} {es : List Event} (h : Grew s t es) :
    t.platformCalls = s.platformCalls ++ es.flatMap Event.calls := by
  simp only [State.platformCalls, h.trace, List.flatMap_append]

/-- With `RW_WRITE = 0` (log 8) the chip-address byte is the address followed by a zero bit. -/
theorem chipAddressByte_eq : chipAddressByte = Config.chipAddr7 ++ (0 : BitVec 1) :=
  BitVec.setWidth_append_eq_shiftLeft_setWidth_or.symm.trans (BitVec.setWidth_eq _)

end Sys2Proof.Machine
end

section
/-!
PROOFS. The statements of the family of spec/20_memory.md.
-/

namespace Sys2Proof.Proofs

open Sys2Proof.Machine Sys2Proof.Safety

/-- Settles O50: a command and each of the Mode Controller's own steps change the image by register writes only, and
those keep it canonical. -/
theorem stepKeepsTheImageCanonical : Obligations.StepKeepsTheImageCanonical := by
  intro s t (hs : ImageCanonical s) h
  obtain ⟨w, rest, i, -, -, run⟩ | ⟨-, -, rfl⟩ | ⟨-, c, -, ⟨-, rfl⟩ | ⟨-, rfl⟩⟩ := step_next h
  · obtain ⟨es, completes⟩ := exec_completes run
    exact completes.imageCanonical (hs.setPort rest)
  · exact hs.boot
  · exact hs.sample c
  · exact hs.confirm c

/-- Settles O55: the way the operation completes on the one state is open to it on the other
(`Completes.of_sameController`). -/
theorem eventsDoNotDependOnTheRecords : Obligations.EventsDoNotDependOnTheRecords := by
  intro i s s' t pc committed pinInput pinReads h
  obtain ⟨es, completes⟩ := exec_completes h
  obtain ⟨t', completes', pc', committed'⟩ := completes.of_sameController ⟨pc, committed, pinInput, pinReads⟩
  exact ⟨t', es, completes'.exec_eq, completes.grew.trace, completes'.grew.trace, pc', committed'⟩

/-- Settles O28: WR_REG adds one `RegWrite` event, which stands for one bus frame. -/
theorem registerWriteIsOneBusFrame : Obligations.RegisterWriteIsOneBusFrame := by
  intro addr val s t h
  obtain ⟨es, completes⟩ := exec_completes h
  rw [completes.grew.platformCalls, ← chipAddressByte_eq]
  cases completes with
  | wrReg => rfl

end Sys2Proof.Proofs
end

section
/-!
PROOFS. Command words (spec/30_encoding.md R57 to R60): the operand codes, masked words field by field, and every answer
of the decoder.
-/

namespace Sys2Proof

/-! ### The operand codes (R57) -/

theorem decodeCrystalLoad_eq_ok {id : BitVec 2} {load : CrystalLoad} :
    decodeCrystalLoad id = .ok load ↔ id = load.code := by
  revert id
  cases load <;> decide

theorem decodePllId_eq_ok {id : BitVec 2} {p : PllId} : decodePllId id = .ok p ↔ id = p.code := by
  revert id
  cases p <;> decide

theorem decodeOutputId_eq_ok {id : BitVec 2} {o : OutputId} : decodeOutputId id = .ok o ↔ id = o.code := by
  revert id
  cases o <;> decide

theorem decodeSrcPll_eq {flag : BitVec 1} {p : PllId} : decodeSrcPll flag = p ↔ flag = p.flag := by
  revert flag
  cases p <;> decide

theorem decodeFlag_eq {flag : BitVec 1} {b : Bool} : decodeFlag flag = b ↔ flag = BitVec.ofBool b := by
  revert flag
  cases b <;> decide

theorem decodeCrystalLoad_eq_error {id : BitVec 2} {e : DecodeError} :
    decodeCrystalLoad id = .error e ↔ e = .reservedCrystalLoad ∧ id = 3 := by
  revert id
  cases e <;> decide

theorem decodePllId_eq_error {id : BitVec 2} {e : DecodeError} :
    decodePllId id = .error e ↔ e = .reservedPllId ∧ 2 ≤ id.toNat := by
  revert id
  cases e <;> decide

theorem decodeOutputId_eq_error {id : BitVec 2} {e : DecodeError} :
    decodeOutputId id = .error e ↔ e = .reservedOutputId ∧ id = 3 := by
  revert id
  cases e <;> decide

/-- WR_REG takes its byte from the low end of the field `x` (R59). -/
theorem and_lowByte_eq_iff {x : U32} {v : Byte} : x &&& 0xFF#32 = v.setWidth 32 ↔ x.extractLsb' 0 8 = v := by
  have lowByte : x.toNat &&& 0xFF = x.toNat % 256 := Nat.and_two_pow_sub_one_eq_mod _ 8
  have v_lt := v.isLt
  have masked : (x &&& 0xFF#32).toNat = x.toNat % 256 := lowByte
  simp only [← BitVec.toNat_inj, masked, BitVec.toNat_setWidth, BitVec.extractLsb'_toNat, Nat.shiftRight_zero]
  omega

/-! ### Masked words, field by field -/

/-- The fields kept where the other's bits are set. -/
def CmdFields.and (f g : CmdFields) : CmdFields where
  op := f.op &&& g.op
  id := f.id &&& g.id
  flag := f.flag &&& g.flag
  zeroLo := f.zeroLo &&& g.zeroLo
  b8 := f.b8 &&& g.b8
  x := f.x &&& g.x
  n := f.n &&& g.n
  d := f.d &&& g.d
  zeroHi := f.zeroHi &&& g.zeroHi

@[simp] theorem cmdFields_and (w v : CmdWord) : cmdFields (w &&& v) = (cmdFields w).and (cmdFields v) := by
  simp only [cmdFields, CmdFields.and, BitVec.extractLsb'_and]

/-- Masking a word is masking its fields. -/
theorem and_toWord_eq_toWord_iff {w : CmdWord} {f g : CmdFields} :
    w &&& f.toWord = g.toWord ↔ (cmdFields w).and f = g := by
  constructor
  · intro h
    simpa using congrArg cmdFields h
  · intro h
    exact cmdWord_ext (by simpa using h)

/-! ### The operation map and the reserved words (R59, R60) -/

/-- The must-be-zero fields are zero. -/
def CmdFields.ZeroFields (f : CmdFields) : Prop :=
  f.zeroLo = 0 ∧ f.zeroHi = 0

theorem CmdFields.zeroOk_iff {f : CmdFields} : f.zeroOk = true ↔ f.ZeroFields := by
  simp [zeroOk, ZeroFields]

/-- The fields stand in the operation's row of the map R59: its `op` number, and its operands in the columns it reads. -/
def CmdFields.InRow (f : CmdFields) : Instr → Prop
  | .encPll mult num denom => f.op = 0 ∧ f.b8 = mult ∧ f.n = num ∧ f.d = denom
  | .encMs div num denom => f.op = 1 ∧ f.x = div ∧ f.n = num ∧ f.d = denom
  | .pack p1 p2 p3 => f.op = 2 ∧ f.x = p1 ∧ f.n = p2 ∧ f.d = p3
  | .wrReg addr val => f.op = 3 ∧ f.b8 = addr ∧ f.x.extractLsb' 0 8 = val
  | .wrDivblk base p1 p2 p3 => f.op = 4 ∧ f.b8 = base ∧ f.x = p1 ∧ f.n = p2 ∧ f.d = p3
  | .init load => f.op = 5 ∧ f.id = load.code
  | .setupPll p mult num denom => f.op = 6 ∧ f.id = p.code ∧ f.b8 = mult ∧ f.n = num ∧ f.d = denom
  | .setupMs o src div num denom =>
    f.op = 7 ∧ f.id = o.code ∧ f.flag = src.flag ∧ f.x = div ∧ f.n = num ∧ f.d = denom
  | .enableOutputs enabled => f.op = 8 ∧ f.flag = BitVec.ofBool enabled
  | .changeFreq level => f.op = 9 ∧ f.flag = BitVec.ofBool level
  | .boot => f.op = 10
  | .poll => f.op = 11

/-- The defect the fields have, the must-be-zero fields looked at first (R60; log 15). -/
def CmdFields.Reserved (f : CmdFields) : DecodeError → Prop
  | .reservedBits => ¬ f.ZeroFields
  | .reservedOp => f.ZeroFields ∧ 12 ≤ f.op.toNat
  | .reservedCrystalLoad => f.ZeroFields ∧ f.op = 5 ∧ f.id = 3
  | .reservedPllId => f.ZeroFields ∧ f.op = 6 ∧ 2 ≤ f.id.toNat
  | .reservedOutputId => f.ZeroFields ∧ f.op = 7 ∧ f.id = 3

/-- What each answer of the decoder says of the fields. -/
def CmdFields.Means (f : CmdFields) : Except DecodeError Instr → Prop
  | .ok i => f.ZeroFields ∧ f.InRow i
  | .error e => f.Reserved e

/-- The encoder writes the operation's row. -/
theorem encodeFields_inRow (i : Instr) : (encodeFields i).InRow i := by
  cases i with
  | wrReg => exact ⟨rfl, rfl, by simp [encodeFields, BitVec.extractLsb'_setWidth_of_le]⟩
  | _ => simp [encodeFields, CmdFields.zero, CmdFields.InRow]

theorem encodeFields_zeroFields (i : Instr) : (encodeFields i).ZeroFields := by
  cases i <;> exact ⟨rfl, rfl⟩

/-- The fields agree with the encoding on the used bits exactly when the must-be-zero fields are zero and the others stand
in the operation's row. -/
theorem masked_eq_encodeFields_iff {f : CmdFields} {i : Instr} :
    f.and (usedFields i) = encodeFields i ↔ f.ZeroFields ∧ f.InRow i := by
  have ones32 : ∀ v : U32, v &&& 0xFFFFFFFF#32 = v := fun _ => BitVec.and_allOnes
  have ones16 : ∀ v : BitVec 16, v &&& 0xFFFF#16 = v := fun _ => BitVec.and_allOnes
  have ones8 : ∀ v : Byte, v &&& 0xFF#8 = v := fun _ => BitVec.and_allOnes
  have ones4 : ∀ v : BitVec 4, v &&& 0xF#4 = v := fun _ => BitVec.and_allOnes
  have ones2 : ∀ v : BitVec 2, v &&& 3#2 = v := fun _ => BitVec.and_allOnes
  have ones1 : ∀ v : BitVec 1, v &&& 1#1 = v := fun _ => BitVec.and_allOnes
  cases i <;>
    simp only [CmdFields.and, usedFields, encodeFields, CmdFields.zero, CmdFields.mk.injEq, CmdFields.ZeroFields,
      CmdFields.InRow, BitVec.ofNat_eq_ofNat, BitVec.and_zero, ones32, ones16, ones8, ones4, ones2, ones1,
      and_lowByte_eq_iff, true_and, and_assoc, and_left_comm, and_comm]

/-- Where an operation uses no operand, the `op` field is all that counts of fields without a defect. -/
theorem masked_by_opcode {f : CmdFields} (zero : f.ZeroFields) : f.and (usedFields .boot) = CmdFields.zero f.op := by
  have ones4 : f.op &&& 0xF#4 = f.op := BitVec.and_allOnes
  obtain ⟨zeroLo, zeroHi⟩ := zero
  simp [CmdFields.and, usedFields, CmdFields.zero, zeroLo, zeroHi, ones4]

/-- The word of an `op` field alone is its number. -/
theorem toWord_zero (op : BitVec 4) : (CmdFields.zero op).toWord = op.setWidth 128 := by
  revert op
  decide

/-! ### Every answer of the decoder -/

/-- The operation numbers: those with an identifier among their operands, the reserved ones, the others. -/
theorem op_cases (op : BitVec 4) : op = 5 ∨ op = 6 ∨ op = 7 ∨ 12 ≤ op.toNat ∨ op = 0 ∨ op = 1 ∨ op = 2 ∨ op = 3 ∨
    op = 4 ∨ op = 8 ∨ op = 9 ∨ op = 10 ∨ op = 11 := by
  revert op
  decide

theorem decodeFields_reservedBits {f : CmdFields} (h : ¬ f.ZeroFields) : decodeFields f = .error .reservedBits :=
  if_neg (mt CmdFields.zeroOk_iff.1 h)

theorem decodeFields_reservedOp {f : CmdFields} (zero : f.ZeroFields) (h : 12 ≤ f.op.toNat) :
    decodeFields f = .error .reservedOp := by
  rw [decodeFields, if_pos (CmdFields.zeroOk_iff.2 zero)]
  split
  case h_13 => rfl
  all_goals omega

/-- Whatever the decoder answers is true of the fields, row by row. -/
theorem means_decodeFields (f : CmdFields) : f.Means (decodeFields f) := by
  by_cases zero : f.ZeroFields
  · have zeroOk := CmdFields.zeroOk_iff.2 zero
    rcases op_cases f.op with op | op | op | op | op | op | op | op | op | op | op | op | op
    · simp only [decodeFields, zeroOk, op]
      cases load : decodeCrystalLoad f.id with
      | ok => exact ⟨zero, op, decodeCrystalLoad_eq_ok.1 load⟩
      | error =>
        obtain ⟨rfl, id⟩ := decodeCrystalLoad_eq_error.1 load
        exact ⟨zero, op, id⟩
    · simp only [decodeFields, zeroOk, op]
      cases p : decodePllId f.id with
      | ok => exact ⟨zero, op, decodePllId_eq_ok.1 p, rfl, rfl, rfl⟩
      | error =>
        obtain ⟨rfl, id⟩ := decodePllId_eq_error.1 p
        exact ⟨zero, op, id⟩
    · simp only [decodeFields, zeroOk, op]
      cases o : decodeOutputId f.id with
      | ok => exact ⟨zero, op, decodeOutputId_eq_ok.1 o, decodeSrcPll_eq.1 rfl, rfl, rfl, rfl⟩
      | error =>
        obtain ⟨rfl, id⟩ := decodeOutputId_eq_error.1 o
        exact ⟨zero, op, id⟩
    · rw [decodeFields_reservedOp zero op]
      exact ⟨zero, op⟩
    all_goals simp [decodeFields, zero, zeroOk, op, CmdFields.Means, CmdFields.InRow, ← decodeFlag_eq]
  · rw [decodeFields_reservedBits zero]
    exact zero

/-- Fields in an operation's row are decoded to it. -/
theorem decodeFields_of_inRow {f : CmdFields} {i : Instr} (zero : f.ZeroFields) (row : f.InRow i) :
    decodeFields f = .ok i := by
  have zeroOk := CmdFields.zeroOk_iff.2 zero
  cases i with
  | encPll | encMs | pack | wrReg | wrDivblk | boot | poll => simp_all [decodeFields, CmdFields.InRow]
  | init load =>
    obtain ⟨op, id⟩ := row
    simp [decodeFields, zeroOk, op, decodeCrystalLoad_eq_ok.2 id, Except.map]
  | setupPll p =>
    obtain ⟨op, id, rfl, rfl, rfl⟩ := row
    simp [decodeFields, zeroOk, op, decodePllId_eq_ok.2 id, Except.map]
  | setupMs o =>
    obtain ⟨op, id, flag, rfl, rfl, rfl⟩ := row
    simp [decodeFields, zeroOk, op, decodeOutputId_eq_ok.2 id, decodeSrcPll_eq.2 flag, Except.map]
  | enableOutputs | changeFreq =>
    obtain ⟨op, flag⟩ := row
    simp [decodeFields, zeroOk, op, decodeFlag_eq.2 flag]

/-- Fields with a defect are rejected by its name. -/
theorem decodeFields_of_reserved {f : CmdFields} {e : DecodeError} (h : f.Reserved e) : decodeFields f = .error e := by
  cases e with
  | reservedBits => exact decodeFields_reservedBits h
  | reservedOp =>
    obtain ⟨zero, op⟩ := h
    exact decodeFields_reservedOp zero op
  | reservedCrystalLoad =>
    obtain ⟨zero, op, id⟩ := h
    simp [decodeFields, CmdFields.zeroOk_iff.2 zero, op, decodeCrystalLoad_eq_error.2 ⟨rfl, id⟩, Except.map]
  | reservedPllId =>
    obtain ⟨zero, op, id⟩ := h
    simp [decodeFields, CmdFields.zeroOk_iff.2 zero, op, decodePllId_eq_error.2 ⟨rfl, id⟩, Except.map]
  | reservedOutputId =>
    obtain ⟨zero, op, id⟩ := h
    simp [decodeFields, CmdFields.zeroOk_iff.2 zero, op, decodeOutputId_eq_error.2 ⟨rfl, id⟩, Except.map]

/-- The decoder's answer is the one whose meaning holds of the fields. -/
theorem decode_eq_iff {w : CmdWord} {a : Except DecodeError Instr} : decode w = a ↔ (cmdFields w).Means a := by
  refine ⟨fun h => h ▸ means_decodeFields _, fun h => ?_⟩
  cases a with
  | ok i =>
    obtain ⟨zero, row⟩ := h
    exact decodeFields_of_inRow zero row
  | error e => exact decodeFields_of_reserved h

/-- Only the bits that select the operation and those it reads count (R57, R59, R60). -/
theorem decode_eq_ok_iff {w : CmdWord} {i : Instr} : decode w = .ok i ↔ w &&& usedMask i = encode i := by
  rw [usedMask, encode, and_toWord_eq_toWord_iff, masked_eq_encodeFields_iff]
  exact decode_eq_iff

end Sys2Proof
end

section
/-!
PROOFS. The statements of the family of spec/30_encoding.md on command words.
-/

namespace Sys2Proof.Proofs

open Sys2Proof.Machine

/-- Settles O1: the encoder writes the row the decoder looks for (`encodeFields_inRow`). -/
theorem decodeOfEncodeIsTheInstruction : Obligations.DecodeOfEncodeIsTheInstruction := by
  intro i
  rw [decode, encode, cmdFields_toWord]
  exact decodeFields_of_inRow (encodeFields_zeroFields i) (encodeFields_inRow i)

/-- Settles O2: both sides say that the must-be-zero bits are zero and the fields stand in the operation's row. -/
theorem decodeIsEncodeOnTheUsedBits : Obligations.DecodeIsEncodeOnTheUsedBits :=
  fun _ _ => decode_eq_ok_iff

/-- Settles O3: the table's mask is the used bits of an operation without operands, and an encoding masked by it keeps its
`op` field alone. -/
theorem encodingsMatchTheOpcodeTable : Obligations.EncodingsMatchTheOpcodeTable := by
  intro i
  have mask : (0xFFFF000000000000000000000000008F : CmdWord) = (usedFields .boot).toWord := by decide
  have opAlone : encode i &&& (usedFields .boot).toWord = (CmdFields.zero (encodeFields i).op).toWord := by
    rw [and_toWord_eq_toWord_iff, encode, cmdFields_toWord]
    exact masked_by_opcode (encodeFields_zeroFields i)
  rw [mask, opAlone, toWord_zero]
  cases i <;> rfl

/-- Settles O4: each name's defect is read off the fields (`decode_eq_iff`). -/
theorem reservedWordsAreRejectedByName : Obligations.ReservedWordsAreRejectedByName :=
  fun _ => ⟨decode_eq_iff, decode_eq_iff, decode_eq_iff, decode_eq_iff, decode_eq_iff⟩

/-- Settles O5, by running the decoder on the six words. -/
theorem wordsOfTheSpecDecode : Obligations.WordsOfTheSpecDecode :=
  ⟨by decide, by decide, by decide, by decide, by decide, by decide⟩

/-- Settles O6: the word at the head of the port is the one taken (`fetch_cons`). -/
theorem stepRunsTheDecodedCommand : Obligations.StepRunsTheDecodedCommand := by
  intro s w rest port
  refine ⟨fun i decoded => ?_, fun why rejected => ?_⟩
  · simp only [step, fetch_cons port, decoded]
    rfl
  · simp only [step, fetch_cons port, rejected]

end Sys2Proof.Proofs
end

section
/-!
PROOFS. What the operations write into the output-control registers (spec/30_encoding.md R52), and the traces of the
expansions of R63.
-/

namespace Sys2Proof.Machine

open Sys2Proof.Safety

/-! ### The control byte (R52) -/

/-- The byte of SETUP_MS by source PLL and mode. -/
theorem ctrlByte_eq (src : PllId) (num : U32) :
    ctrlByte src num = match src, num == 0 with
      | .a, false => 0x0F
      | .b, false => 0x2F
      | .a, true => 0x4F
      | .b, true => 0x6F := by
  unfold ctrlByte isInt
  generalize (num == 0) = integer
  cases src <;> cases integer <;> rfl

/-- INIT's constant and the four bytes of SETUP_MS. -/
def isControlByte (v : Byte) : Bool :=
  v == 0x80 || v == 0x0F || v == 0x2F || v == 0x4F || v == 0x6F

theorem isControlByte_ctrlByte (src : PllId) (num : U32) : isControlByte (ctrlByte src num) = true := by
  rw [ctrlByte_eq]
  generalize (num == 0) = integer
  cases src <;> cases integer <;> rfl

/-- The event writes no byte to the registers 16 to 18 but a control byte. -/
def Event.controlOk : Event → Bool
  | .regWrite a v => !(16 ≤ a.toNat && a.toNat ≤ 18) || isControlByte v
  | _ => true

theorem isControlByte_of_controlOk {es : List Event} (h : es.all Event.controlOk = true) {o : OutputId} {v : Byte}
    (written : .regWrite (msCtrl o) v ∈ es) : isControlByte v = true := by
  have ok := List.all_eq_true.1 h _ written
  obtain ⟨low, high⟩ := msCtrl_range o
  simpa [Event.controlOk, low, high] using ok

theorem controlOk_setupPll (p : PllId) (b : Block) (v : Byte) :
    (blockEvents (pllBase p) b ++ [Event.regWrite 177 v]).all Event.controlOk = true := by
  cases p <;> rfl

theorem controlOk_setupMs (o : OutputId) (b : Block) (src : PllId) (num : U32) :
    (blockEvents (msBase o) b ++ [Event.regWrite (msCtrl o) (ctrlByte src num)]).all Event.controlOk = true := by
  have block : (blockEvents (msBase o) b).all Event.controlOk = true := by cases o <;> rfl
  simp [List.all_append, block, Event.controlOk, isControlByte_ctrlByte]

theorem controlOk_changeFreqEvents (level : Bool) : (changeFreqEvents level).all Event.controlOk = true := by
  unfold changeFreqEvents
  split <;> rfl

theorem controlOk_bootPrefix : bootPrefix.all Event.controlOk = true := rfl

theorem controlOk_confirm (c level : Bool) :
    ([Event.delay Config.settleMs, .pinRead level] ++ if level = c then [] else changeFreqEvents (!c)).all
      Event.controlOk = true := by
  rw [List.all_append]
  split
  · rfl
  · exact controlOk_changeFreqEvents _

/-- Only WR_REG and WR_DIVBLK, whose byte and address are operands, can write another byte there (R92, R93). -/
theorem Completes.controlOk {i : Instr} {s t : State} {es : List Event} (h : Completes i s es t)
    (notWrReg : ∀ addr val, i ≠ .wrReg addr val) (notWrDivblk : ∀ base p1 p2 p3, i ≠ .wrDivblk base p1 p2 p3) :
    es.all Event.controlOk = true := by
  cases h with
  | encPll | encMs | pack | pollSample => rfl
  | wrReg => exact absurd rfl (notWrReg _ _)
  | wrDivblk => exact absurd rfl (notWrDivblk _ _ _ _)
  | init | enableOutputs => rfl
  | setupPll => exact controlOk_setupPll ..
  | setupMs => exact controlOk_setupMs ..
  | changeFreq => exact controlOk_changeFreqEvents _
  | boot =>
    simp only [List.all_append, controlOk_bootPrefix, controlOk_changeFreqEvents]
    rfl
  | pollConfirm => exact controlOk_confirm ..
  | pollBoth =>
    rw [List.all_append, controlOk_confirm]
    rfl

/-! ### Operations in sequence (R63) -/

theorem SameController.trans {s t u : State} (h : SameController s t) (k : SameController t u) : SameController s u :=
  ⟨h.pc.trans k.pc, h.committed.trans k.committed, h.pinInput.trans k.pinInput, h.pinReads.trans k.pinReads⟩

/-- `o`, issued in `s`, completes, adds these events to the trace and leaves the sequencer and the pin input alone. -/
def Adds (s : State) (o : Out) (es : List Event) : Prop :=
  ∃ t, o = .next t ∧ t.trace = s.trace ++ es ∧ SameController t s

/-- One operation after another adds its events after the other's. -/
theorem Adds.andThen {s : State} {o : Out} {k : State → Out} {es fs : List Event} (h : Adds s o es)
    (next : ∀ t, Adds t (k t) fs) : Adds s (andThen o k) (es ++ fs) := by
  obtain ⟨t, rfl, trace, same⟩ := h
  obtain ⟨u, completes, trace', same'⟩ := next t
  exact ⟨u, completes, by rw [trace', trace, List.append_assoc], same'.trans same⟩

/-- Two ways to add the same events leave the same trace. -/
theorem Adds.same_trace {s : State} {o o' : Out} {es : List Event} (h : Adds s o es) (h' : Adds s o' es) :
    ∃ t u, o = .next t ∧ o' = .next u ∧ t.trace = u.trace := by
  obtain ⟨t, completes, trace, -⟩ := h
  obtain ⟨u, completes', trace', -⟩ := h'
  exact ⟨t, u, completes, completes', trace.trans trace'.symm⟩

/-- Every operation but BOOT and POLL adds the events of its way to complete. -/
theorem Completes.adds {i : Instr} {s t : State} {es : List Event} (h : Completes i s es t) (notBoot : i ≠ .boot)
    (notPoll : i ≠ .poll) : Adds s (exec i s) es := by
  obtain ⟨pc, committed, pinInput, pinReads⟩ := h.controller_frame notBoot notPoll
  exact ⟨t, h.exec_eq, h.grew.trace, ⟨pc, committed, pinInput, pinReads⟩⟩

theorem adds_wrReg (addr val : Byte) (s : State) : Adds s (exec (.wrReg addr val) s) [.regWrite addr val] :=
  Completes.wrReg.adds (by simp) (by simp)

theorem adds_wrDivblk (base : Byte) (p1 p2 p3 : U32) (s : State) :
    Adds s (exec (.wrDivblk base p1 p2 p3) s) (blockEvents base (pack { p1 := p1, p2 := p2, p3 := p3 })) :=
  Completes.wrDivblk.adds (by simp) (by simp)

theorem adds_init (load : CrystalLoad) (s : State) : Adds s (exec (.init load) s) (initEvents load) :=
  Completes.init.adds (by simp) (by simp)

theorem adds_setupPll (p : PllId) (mult : Byte) {num denom : U32} (defined : num ≠ 0 → denom ≠ 0) (s : State) :
    Adds s (exec (.setupPll p mult num denom) s)
      (blockEvents (pllBase p) (pack (encodePllZ .binary32 mult num denom).trunc) ++
        [.regWrite 177 (pllResetByte p)]) :=
  (Completes.setupPll defined).adds (by simp) (by simp)

theorem adds_setupMs (o : OutputId) (src : PllId) (div : U32) {num denom : U32} (defined : num ≠ 0 → denom ≠ 0)
    (s : State) :
    Adds s (exec (.setupMs o src div num denom) s)
      (blockEvents (msBase o) (pack (encodeMsZ .binary32 div num denom).trunc) ++
        [.regWrite (msCtrl o) (ctrlByte src num)]) :=
  (Completes.setupMs defined).adds (by simp) (by simp)

theorem adds_enableOutputs (enabled : Bool) (s : State) :
    Adds s (exec (.enableOutputs enabled) s) [.regWrite 3 (enableMask enabled)] :=
  Completes.enableOutputs.adds (by simp) (by simp)

theorem adds_changeFreq (level : Bool) {s : State} (notSettling : s.pc ≠ .settle) :
    Adds s (exec (.changeFreq level) s) (changeFreqEvents level) :=
  (Completes.changeFreq notSettling).adds (by simp) (by simp)

/-! ### The expansions (R63) -/

/-- WR_DIVBLK as eight WR_REG (R93). -/
theorem adds_eightWrReg (base : Byte) (b : Block) (s : State) :
    Adds s (andThen (exec (.wrReg base b.b0) s) fun s => andThen (exec (.wrReg (base + 1) b.b1) s) fun s =>
        andThen (exec (.wrReg (base + 2) b.b2) s) fun s => andThen (exec (.wrReg (base + 3) b.b3) s) fun s =>
        andThen (exec (.wrReg (base + 4) b.b4) s) fun s => andThen (exec (.wrReg (base + 5) b.b5) s) fun s =>
        andThen (exec (.wrReg (base + 6) b.b6) s) (exec (.wrReg (base + 7) b.b7)))
      (blockEvents base b) :=
  (adds_wrReg ..).andThen fun _ => (adds_wrReg ..).andThen fun _ => (adds_wrReg ..).andThen fun _ =>
    (adds_wrReg ..).andThen fun _ => (adds_wrReg ..).andThen fun _ => (adds_wrReg ..).andThen fun _ =>
    (adds_wrReg ..).andThen fun _ => adds_wrReg ..

/-- CHANGE_FREQ as ENABLE_OUTPUTS, SETUP_MS twice and ENABLE_OUTPUTS again (R126). -/
theorem adds_changeFreqExpansion (level : Bool) (s : State) :
    Adds s (andThen (exec (.enableOutputs false) s) fun s =>
        andThen (exec (.setupMs .out0 (levelTarget level).1 (levelTarget level).2 0 1) s) fun s =>
        andThen (exec (.setupMs .out1 (levelTarget level).1 (levelTarget level).2 0 1) s)
          (exec (.enableOutputs true)))
      (changeFreqEvents level) := by
  have defined : (0 : U32) ≠ 0 → (1 : U32) ≠ 0 := fun _ => by decide
  have all := (adds_enableOutputs false s).andThen fun t =>
    (adds_setupMs .out0 (levelTarget level).1 (levelTarget level).2 defined t).andThen fun t =>
      (adds_setupMs .out1 (levelTarget level).1 (levelTarget level).2 defined t).andThen (adds_enableOutputs true)
  rw [← changeFreqEvents_eq, ← changeFreqRecord_eq]
  exact all

/-- The configuration part of BOOT as INIT and SETUP_PLL twice (R122). -/
theorem adds_bootPlls (s : State) :
    Adds s (andThen (exec (.init Config.bootXtal) s) fun s => andThen (exec (.setupPll .a 25 193181 250000) s)
        (exec (.setupPll .b Config.pllbRatio.mult Config.pllbRatio.num Config.pllbRatio.denom)))
      (initEvents Config.bootXtal ++ (ntscPllEvents ++ palPllEvents)) := by
  have ntsc : blockEvents (pllBase .a) (pack (encodePllZ .binary32 25 193181 250000).trunc) ++
      [.regWrite 177 (pllResetByte .a)] = ntscPllEvents := by decide
  rw [← ntsc]
  exact (adds_init _ s).andThen fun t => (adds_setupPll .a 25 (fun _ => by decide) t).andThen
    (adds_setupPll .b Config.pllbRatio.mult fun _ => Config.pllbRatio.denom_pos)

end Sys2Proof.Machine
end

section
/-!
PROOFS. The statements of the family of spec/30_encoding.md on control bytes and expansions.
-/

namespace Sys2Proof.Proofs

open Sys2Proof.Machine Sys2Proof.Safety

/-- Settles O33: INIT and SETUP_MS leave their byte in the image, and no other operation with fixed addresses writes
another (`Completes.controlOk`). -/
theorem controlBytesHaveFiveValues : Obligations.ControlBytesHaveFiveValues := by
  refine ⟨fun load s t h o => ?_, fun o src div num denom s t h => ?_,
    fun i s t es notWrReg notWrDivblk h added o v written => ?_⟩
  · cases h
    exact read_initSeq_ctrl load s o
  · obtain ⟨es, completes⟩ := exec_completes h
    have grew := completes.grew
    cases completes with
    | setupMs =>
      refine ⟨ctrlByte src num, read_lastRegister grew.regs, ?_, ctrlByte_eq src num⟩
      rw [grew.trace, ← List.append_assoc, List.getLast?_concat]
  · obtain ⟨es', completes⟩ := exec_completes h
    have same : es = es' := List.append_cancel_left (added.symm.trans completes.grew.trace)
    rw [same] at written
    simpa [isControlByte, or_assoc] using
      isControlByte_of_controlOk (completes.controlOk notWrReg notWrDivblk) written

/-- Settles O35: an operation and its expansion add the same events (`Adds.same_trace`). -/
theorem pseudoOperationsExpand : Obligations.PseudoOperationsExpand := by
  intro s
  refine ⟨fun base p1 p2 p3 => (adds_wrDivblk base p1 p2 p3 s).same_trace (adds_eightWrReg base _ s),
    fun p mult num denom defined => ?_, fun o src div num denom defined => ?_,
    fun level notSettling => (adds_changeFreq level notSettling).same_trace (adds_changeFreqExpansion level s),
    fun inReset => ?_⟩
  · obtain ⟨t, u, ran, expanded, trace⟩ := (adds_setupPll p mult defined s).same_trace
      ((adds_wrDivblk ..).andThen (adds_wrReg 177 (pllResetByte p)))
    exact ⟨_, t, u, exec_encPll_eq mult defined s, ran, expanded, trace⟩
  · obtain ⟨t, u, ran, expanded, trace⟩ := (adds_setupMs o src div defined s).same_trace
      ((adds_wrDivblk ..).andThen (adds_wrReg (msCtrl o) (ctrlByte src num)))
    exact ⟨_, t, u, exec_encMs_eq div defined s, ran, expanded, trace⟩
  · obtain ⟨u, configured, trace, same⟩ := adds_bootPlls s.configurePin
    have notSettling : u.readPin.pc ≠ .settle := by simp [same.pc, inReset]
    obtain ⟨v, tuned, trace', -⟩ := adds_changeFreq (s.pinLevel 0) notSettling
    refine ⟨_, u, v, exec_boot_eq inReset, configured, tuned, ?_⟩
    rw [trace', State.readPin_trace, trace, same.pinLevel, (Grew.bootState s).trace]
    simp [bootPrefix]

end Sys2Proof.Proofs
end

section
/-!
PROOFS. Binary32 rounding (spec/40_divider_encoder.md R74) as arithmetic on rationals, and how the two fraction modes
compare (R76).
-/

namespace Sys2Proof.Machine

/-! ### The rational a `Ratio` stands for -/

/-- The rational a `Ratio` stands for. -/
def Ratio.val (x : Ratio) : ℚ :=
  x.num / x.den

/-- Both parts positive, as R74's operand is. -/
structure Ratio.Positive (x : Ratio) : Prop where
  num_pos : 0 < x.num
  den_pos : 0 < x.den

@[simp] theorem Ratio.val_ofNat (n : Nat) : (Ratio.ofNat n).val = n := by
  simp [Ratio.val, Ratio.ofNat]

@[simp] theorem Ratio.val_div (x y : Ratio) : (x.div y).val = x.val / y.val := by
  simp only [Ratio.val, Ratio.div, Nat.cast_mul, div_div_div_eq]

@[simp] theorem Ratio.val_scaleDown (x : Ratio) (k : ℤ) : (x.scaleDown k).val = x.val / 2 ^ k := by
  obtain ⟨n, rfl | rfl⟩ := k.eq_nat_or_neg
  · simp [Ratio.val, Ratio.scaleDown, div_mul_eq_div_div]
  · simp [Ratio.val, Ratio.scaleDown, mul_div_right_comm]

theorem Ratio.floor_eq (x : Ratio) : x.floor = ⌊x.val⌋₊ :=
  (Nat.floor_div_eq_div x.num x.den).symm

theorem Ratio.val_nonneg (x : Ratio) : 0 ≤ x.val :=
  div_nonneg x.num.cast_nonneg x.den.cast_nonneg

theorem Ratio.Positive.val_pos {x : Ratio} (h : x.Positive) : 0 < x.val :=
  div_pos (by exact_mod_cast h.num_pos) (by exact_mod_cast h.den_pos)

theorem Ratio.positive_iff {x : Ratio} : x.Positive ↔ 0 < x.val where
  mp := Ratio.Positive.val_pos
  mpr h :=
    { num_pos := Nat.pos_of_ne_zero fun zero => by simp [Ratio.val, zero] at h
      den_pos := Nat.pos_of_ne_zero fun zero => by simp [Ratio.val, zero] at h }

theorem Ratio.den_le_num_iff {x : Ratio} (h : x.Positive) : x.den ≤ x.num ↔ 1 ≤ x.val := by
  rw [Ratio.val, one_le_div (by exact_mod_cast h.den_pos), Nat.cast_le]

/-! ### The exponent -/

/-- A natural number lies between the powers of two its bit length names. -/
theorem zpow_log2_bounds {n : Nat} (h : 0 < n) : (2 : ℚ) ^ (n.log2 : ℤ) ≤ n ∧ (n : ℚ) < 2 ^ ((n.log2 : ℤ) + 1) :=
  ⟨by exact_mod_cast Nat.log2_self_le h.ne', by exact_mod_cast Nat.lt_log2_self⟩

/-- The difference of the bit lengths brackets the value between powers of two up to a factor of 4. -/
theorem Ratio.val_bounds_of_log2 {x : Ratio} (h : x.Positive) :
    (2 : ℚ) ^ ((x.num.log2 : ℤ) - x.den.log2 - 1) ≤ x.val ∧ x.val < 2 ^ ((x.num.log2 : ℤ) - x.den.log2 + 1) := by
  have den0 : (0 : ℚ) < x.den := by exact_mod_cast h.den_pos
  obtain ⟨numLow, numHigh⟩ := zpow_log2_bounds h.num_pos
  obtain ⟨denLow, denHigh⟩ := zpow_log2_bounds h.den_pos
  rw [Ratio.val, le_div_iff₀ den0, div_lt_iff₀ den0]
  generalize (x.num.log2 : ℤ) = a at *
  generalize (x.den.log2 : ℤ) = b at *
  constructor
  · calc 2 ^ (a - b - 1) * (x.den : ℚ) ≤ 2 ^ (a - b - 1) * 2 ^ (b + 1) := by gcongr
      _ = 2 ^ a := by rw [← zpow_add₀ two_ne_zero]; congr 1; ring
      _ ≤ x.num := numLow
  · calc (x.num : ℚ) < 2 ^ (a + 1) := numHigh
      _ = 2 ^ (a - b + 1) * 2 ^ b := by rw [← zpow_add₀ two_ne_zero]; congr 1; ring
      _ ≤ 2 ^ (a - b + 1) * x.den := by gcongr

/-- The comparison by which `Ratio.exponent` decides. -/
theorem Ratio.scaleDown_den_le_num_iff {x : Ratio} (h : x.Positive) (k : ℤ) :
    (x.scaleDown k).den ≤ (x.scaleDown k).num ↔ 2 ^ k ≤ x.val := by
  have scaled : (x.scaleDown k).Positive := Ratio.positive_iff.2 (by
    rw [Ratio.val_scaleDown]; exact div_pos h.val_pos (by positivity))
  rw [Ratio.den_le_num_iff scaled, Ratio.val_scaleDown, one_le_div (by positivity)]

/-- `Ratio.exponent` is R74's `e`. -/
theorem Ratio.exponent_bounds {x : Ratio} (h : x.Positive) :
    (2 : ℚ) ^ x.exponent ≤ x.val ∧ x.val < 2 ^ (x.exponent + 1) := by
  obtain ⟨low, high⟩ := Ratio.val_bounds_of_log2 h
  simp only [Ratio.exponent, Ratio.scaleDown_den_le_num_iff h]
  split
  next reached => exact ⟨reached, high⟩
  next notReached => exact ⟨low, by rw [sub_add_cancel]; exact not_le.1 notReached⟩

/-! ### The nearest integer -/

/-- The value is its integer part and a remainder below 1. -/
theorem Ratio.val_eq_floor_add (m : Ratio) (h : 0 < m.den) :
    m.val = (m.num / m.den : ℕ) + (m.num % m.den : ℕ) / (m.den : ℚ) := by
  have den0 : (m.den : ℚ) ≠ 0 := by exact_mod_cast h.ne'
  rw [Ratio.val, div_eq_iff den0, add_mul, div_mul_cancel₀ _ den0]
  exact_mod_cast (Nat.div_add_mod' m.num m.den).symm

/-- How a remainder compares with half of its divisor. -/
theorem compare_half {r d : Nat} (h : 0 < d) :
    (2 * r < d ↔ (r : ℚ) / d < 1 / 2) ∧ (d < 2 * r ↔ 1 / 2 < (r : ℚ) / d) := by
  have d0 : (0 : ℚ) < d := by exact_mod_cast h
  rw [div_lt_div_iff₀ d0 two_pos, div_lt_div_iff₀ two_pos d0, one_mul, mul_comm]
  norm_cast

/-- `m` is the integer nearest to `t`, the even one on a tie (R74). -/
def NearestEven (t : ℚ) (m : ℕ) : Prop :=
  |t - m| ≤ 1 / 2 ∧ (|t - m| = 1 / 2 → m % 2 = 0)

theorem nearestEven_of_lt {t : ℚ} {m : ℕ} (h : |t - m| < 1 / 2) : NearestEven t m :=
  ⟨h.le, fun tie => absurd tie h.ne⟩

theorem nearestEven_of_tie {t : ℚ} {m : ℕ} (h : |t - m| = 1 / 2) (even : m % 2 = 0) : NearestEven t m :=
  ⟨h.le, fun _ => even⟩

theorem Ratio.nearestEven_roundHalfEven {m : Ratio} (h : 0 < m.den) : NearestEven m.val m.roundHalfEven := by
  obtain ⟨isBelow, isAbove⟩ := compare_half (r := m.num % m.den) h
  rw [m.val_eq_floor_add h]
  have nonneg : (0 : ℚ) ≤ (m.num % m.den : ℕ) / m.den := by positivity
  have small : ((m.num % m.den : ℕ) : ℚ) / m.den < 1 :=
    (div_lt_one (by exact_mod_cast h)).2 (by exact_mod_cast Nat.mod_lt _ h)
  simp only [Ratio.roundHalfEven]
  generalize ((m.num % m.den : ℕ) : ℚ) / m.den = t at *
  split
  next below => exact nearestEven_of_lt (by rw [add_sub_cancel_left, abs_of_nonneg nonneg]; exact isBelow.1 below)
  next notBelow =>
    have up : |((m.num / m.den : ℕ) : ℚ) + t - (m.num / m.den + 1 : ℕ)| = 1 - t := by
      rw [Nat.cast_add_one, add_sub_add_left_eq_sub, abs_sub_comm, abs_of_pos (sub_pos.2 small)]
    split
    next above => exact nearestEven_of_lt (by rw [up]; linarith [isAbove.1 above])
    next notAbove =>
      have tie : t = 1 / 2 := le_antisymm (not_lt.1 (mt isAbove.2 notAbove)) (not_lt.1 (mt isBelow.2 notBelow))
      split
      next even => exact nearestEven_of_tie (by rw [add_sub_cancel_left, abs_of_nonneg nonneg, tie]) even
      next odd => exact nearestEven_of_tie (by rw [up, tie]; norm_num) (by omega)

/-! ### Rounding to 24 significant bits -/

theorem Ratio.rn32_val (x : Ratio) :
    x.rn32.val = (x.scaleDown (x.exponent - 23)).roundHalfEven * 2 ^ (x.exponent - 23) := by
  simp only [Ratio.rn32, Ratio.val_scaleDown, Ratio.val_ofNat, zpow_neg, div_inv_eq_mul]

/-- R74: `RN32(x)` is a whole number of units in the last place, the one nearest to `x`. -/
theorem Ratio.rn32_nearestEven {x : Ratio} (h : x.Positive) :
    ∃ m : ℕ, NearestEven (x.val / 2 ^ (x.exponent - 23)) m ∧ x.rn32.val = m * 2 ^ (x.exponent - 23) := by
  refine ⟨_, ?_, x.rn32_val⟩
  have nearest := Ratio.nearestEven_roundHalfEven (m := x.scaleDown (x.exponent - 23))
    (Nat.mul_pos h.den_pos (by positivity))
  rwa [Ratio.val_scaleDown] at nearest

/-- Rounding moves `x` by at most half a unit in the last place. -/
theorem Ratio.abs_rn32_sub_le {x : Ratio} (h : x.Positive) : |x.rn32.val - x.val| ≤ 2 ^ (x.exponent - 24) := by
  obtain ⟨m, ⟨near, -⟩, rounded⟩ := Ratio.rn32_nearestEven h
  have unit : (0 : ℚ) < 2 ^ (x.exponent - 23) := by positivity
  have halfUnit : (2 : ℚ) ^ (x.exponent - 24) = 1 / 2 * 2 ^ (x.exponent - 23) := by
    rw [show x.exponent - 23 = x.exponent - 24 + 1 by ring, zpow_add_one₀ two_ne_zero]; ring
  calc |x.rn32.val - x.val| = |x.val / 2 ^ (x.exponent - 23) - m| * 2 ^ (x.exponent - 23) := by
        rw [rounded, abs_sub_comm, ← abs_of_pos unit, ← abs_mul, abs_of_pos unit, sub_mul,
          div_mul_cancel₀ _ unit.ne']
    _ ≤ 2 ^ (x.exponent - 24) := by rw [halfUnit]; gcongr

/-- A multiple of the last place's unit that is at most `x` is at most `RN32(x)`, and one at least `x` is at least
`RN32(x)`: rounding crosses no such number. -/
theorem Ratio.rn32_multiple {x : Ratio} (h : x.Positive) (j : ℕ) :
    (j * 2 ^ (x.exponent - 23) ≤ x.val → j * 2 ^ (x.exponent - 23) ≤ x.rn32.val) ∧
      (x.val ≤ j * 2 ^ (x.exponent - 23) → x.rn32.val ≤ j * 2 ^ (x.exponent - 23)) := by
  obtain ⟨m, ⟨near, -⟩, rounded⟩ := Ratio.rn32_nearestEven h
  have unit : (0 : ℚ) < 2 ^ (x.exponent - 23) := by positivity
  obtain ⟨low, high⟩ := abs_le.1 near
  rw [rounded, mul_le_mul_iff_left₀ unit, mul_le_mul_iff_left₀ unit, ← le_div_iff₀ unit, ← div_le_iff₀ unit,
    Nat.cast_le, Nat.cast_le]
  constructor <;> intro side
  · have : (j : ℚ) < m + 1 := by linarith
    exact Nat.lt_succ_iff.1 (by exact_mod_cast this)
  · have : (m : ℚ) < j + 1 := by linarith
    exact Nat.lt_succ_iff.1 (by exact_mod_cast this)

/-- A multiple of a power of two is a multiple of every finer one. -/
theorem multiple_of_coarser (j : ℕ) {i u : ℤ} (h : u ≤ i) : ∃ k : ℕ, (j : ℚ) * 2 ^ i = k * 2 ^ u := by
  obtain ⟨d, rfl⟩ := Int.le.dest h
  exact ⟨j * 2 ^ d, by push_cast; rw [zpow_add₀ two_ne_zero, zpow_natCast]; ring⟩

/-- Rounding stays above every number of 24 significant bits below `x`. -/
theorem Ratio.le_rn32 {x : Ratio} (h : x.Positive) {j : ℕ} (i : ℤ) (fits : j < 2 ^ 24) (below : j * 2 ^ i ≤ x.val) :
    j * 2 ^ i ≤ x.rn32.val := by
  obtain coarse | fine := le_or_gt (x.exponent - 23) i
  · obtain ⟨k, same⟩ := multiple_of_coarser j coarse
    rw [same] at below ⊢
    exact (Ratio.rn32_multiple h k).1 below
  · have power : (2 : ℚ) ^ x.exponent = (2 ^ 23 : ℕ) * 2 ^ (x.exponent - 23) := by
      rw [← add_sub_cancel 23 x.exponent, zpow_add₀ two_ne_zero, add_sub_cancel]; norm_num
    calc (j : ℚ) * 2 ^ i ≤ 2 ^ 24 * 2 ^ i := by gcongr; exact_mod_cast fits.le
      _ = 2 ^ (i + 24) := by rw [zpow_add₀ two_ne_zero, mul_comm]; rfl
      _ ≤ 2 ^ x.exponent := zpow_le_zpow_right₀ one_le_two (by omega)
      _ ≤ x.rn32.val := by
        rw [power]; exact (Ratio.rn32_multiple h _).1 (power ▸ (Ratio.exponent_bounds h).1)

/-- Rounding stays below every number of 24 significant bits above `x`. -/
theorem Ratio.rn32_le {x : Ratio} (h : x.Positive) {j : ℕ} (i : ℤ) (fits : j < 2 ^ 24) (above : x.val ≤ j * 2 ^ i) :
    x.rn32.val ≤ j * 2 ^ i := by
  have bound : (2 : ℚ) ^ x.exponent < 2 ^ (i + 24) := by
    calc (2 : ℚ) ^ x.exponent ≤ j * 2 ^ i := (Ratio.exponent_bounds h).1.trans above
      _ < 2 ^ 24 * 2 ^ i := by gcongr; exact_mod_cast fits
      _ = 2 ^ (i + 24) := by rw [zpow_add₀ two_ne_zero, mul_comm]; rfl
  have coarse : x.exponent < i + 24 := (zpow_lt_zpow_iff_right₀ one_lt_two).1 bound
  obtain ⟨k, same⟩ := multiple_of_coarser j (show x.exponent - 23 ≤ i by omega)
  rw [same] at above ⊢
  exact (Ratio.rn32_multiple h k).2 above

theorem Ratio.rn32_exact {x : Ratio} (h : x.Positive) {j : ℕ} (i : ℤ) (fits : j < 2 ^ 24) (value : x.val = j * 2 ^ i) :
    x.rn32.val = x.val :=
  value ▸ le_antisymm (Ratio.rn32_le h i fits value.le) (Ratio.le_rn32 h i fits value.ge)

theorem ofNat_rn32 {n : Nat} (pos : 0 < n) (fits : n < 2 ^ 24) : (Ratio.ofNat n).rn32.val = n := by
  rw [Ratio.rn32_exact (Ratio.positive_iff.2 (by simpa using pos)) 0 fits (by simp), Ratio.val_ofNat]

/-! ### The two fraction modes -/

/-- Where binary32 holds both operands, the quotient is rounded once (R74). -/
theorem quotient32_eq_rn32 {num denom : Nat} (num_pos : 0 < num) (denom_pos : 0 < denom) (num_fits : num < 2 ^ 24)
    (denom_fits : denom < 2 ^ 24) :
    ∃ q : Ratio, q.Positive ∧ q.val = (num : ℚ) / denom ∧ quotient32 num denom = q.rn32 := by
  have value : ((Ratio.ofNat num).rn32.div (Ratio.ofNat denom).rn32).val = (num : ℚ) / denom := by
    rw [Ratio.val_div, ofNat_rn32 num_pos num_fits, ofNat_rn32 denom_pos denom_fits]
  exact ⟨_, Ratio.positive_iff.2 (by rw [value]; positivity), value, rfl⟩

theorem fracB32_eq_floor (num denom : Nat) : fracB32 num denom = ⌊128 * (quotient32 num denom).val⌋₊ := by
  rw [fracB32, Ratio.floor_eq, Ratio.val_scaleDown, zpow_neg, div_inv_eq_mul, mul_comm]
  norm_num

theorem fracExact_eq_floor (num denom : Nat) : fracExact num denom = ⌊128 * ((num : ℚ) / denom)⌋₊ := by
  rw [fracExact, ← Nat.floor_div_eq_div (K := ℚ), Nat.cast_mul, mul_div_assoc]; rfl

/-- In units of 1/128, rounding crosses no whole number below `2^24`. -/
theorem Ratio.rn32_times_128 {x : Ratio} (h : x.Positive) {j : ℕ} (fits : j < 2 ^ 24) :
    (j ≤ 128 * x.val → j ≤ 128 * x.rn32.val) ∧ (128 * x.val ≤ j → 128 * x.rn32.val ≤ j) := by
  have units : (j : ℚ) * 2 ^ (-7 : ℤ) = j / 128 := by norm_num [div_eq_mul_inv]
  constructor <;> intro side
  · have := Ratio.le_rn32 h (-7) fits (by rw [units]; linarith)
    rw [units] at this; linarith
  · have := Ratio.rn32_le h (-7) fits (by rw [units]; linarith)
    rw [units] at this; linarith

/-- A proper fraction is rounded by at most `2^(-25)`. -/
theorem Ratio.rn32_le_of_proper {x : Ratio} (h : x.Positive) (proper : x.val < 1) :
    x.rn32.val ≤ x.val + 2 ^ (-25 : ℤ) := by
  have negative : x.exponent < 0 :=
    (zpow_lt_one_iff_right₀ one_lt_two).1 ((Ratio.exponent_bounds h).1.trans_lt proper)
  have step : (2 : ℚ) ^ (x.exponent - 24) ≤ 2 ^ (-25 : ℤ) := zpow_le_zpow_right₀ one_le_two (by omega)
  linarith [(abs_le.1 (Ratio.abs_rn32_sub_le h)).2]

/-- A fraction over less than `2^18` stays clear of the next multiple of 1/128 by more than rounding adds to a proper
fraction. -/
theorem rounded_up_lt_fracExact_succ {num denom : Nat} (denom_pos : 0 < denom) (small : denom < 2 ^ 18) :
    128 * ((num : ℚ) / denom + 2 ^ (-25 : ℤ)) < fracExact num denom + 1 := by
  have denom0 : (0 : ℚ) < denom := by exact_mod_cast denom_pos
  have next : 128 * num + 1 ≤ denom * (fracExact num denom + 1) := Nat.lt_mul_div_succ _ denom_pos
  have next' : (128 * num + 1 : ℚ) ≤ denom * (fracExact num denom + 1) := by exact_mod_cast next
  have small' : (denom : ℚ) < 2 ^ 18 := by exact_mod_cast small
  have room : 128 * ((num : ℚ) / denom + 2 ^ (-25 : ℤ)) * denom = 128 * num + denom / 2 ^ 18 := by
    rw [mul_assoc, add_mul, div_mul_cancel₀ _ denom0.ne']; ring
  refine lt_of_mul_lt_mul_right ?_ denom0.le
  have below : (denom : ℚ) / 2 ^ 18 < 1 := (div_lt_one (by positivity)).2 small'
  linarith

/-- A whole quotient that fits 24 bits is not changed by the rounding. -/
theorem fracB32_mul_self {n t : Nat} (n_pos : 0 < n) (t_pos : 0 < t) (fits : n * t < 2 ^ 24) :
    fracB32 (n * t) t = 128 * n := by
  obtain ⟨q, pos, value, rounded⟩ := quotient32_eq_rn32 (Nat.mul_pos n_pos t_pos) t_pos fits
    ((Nat.le_mul_of_pos_left t n_pos).trans_lt fits)
  have t0 : (t : ℚ) ≠ 0 := by exact_mod_cast t_pos.ne'
  have whole : q.val = n := by rw [value, Nat.cast_mul, mul_div_cancel_right₀ _ t0]
  have same := Ratio.rn32_exact pos 0 ((Nat.le_mul_of_pos_right n t_pos).trans_lt fits) (by simp [whole])
  rw [fracB32_eq_floor, rounded, same, whole]
  exact_mod_cast Nat.floor_natCast (128 * n)

theorem fracExact_mul_self {n t : Nat} (t_pos : 0 < t) : fracExact (n * t) t = 128 * n := by
  rw [fracExact, ← mul_assoc, Nat.mul_div_cancel _ t_pos]

end Sys2Proof.Machine
end

section
/-!
PROOFS. What the packed triple stands for (spec/40_divider_encoder.md R77, R79, R81), and what its serialisation keeps
(R75, R83; spec/41_register_writer.md R94).
-/

namespace Sys2Proof.Machine

/-! ### The ratio and the remainder -/

/-- The ratio a triple stands for, `(P1z + 512 + P2z/P3z) / 128` (R81). -/
def TripleZ.ratio (z : TripleZ) : ℚ :=
  (z.p1 + 512 + (z.p2 : ℚ) / z.p3) / 128

theorem integerPath_ratio (a denom : Nat) : (integerPath a denom).ratio = a := by
  simp [TripleZ.ratio, integerPath]

theorem simplifiedPath_ratio (a num : Nat) : (simplifiedPath a num).ratio = a + 2 * num - 1 := by
  simp only [TripleZ.ratio, simplifiedPath]; push_cast; ring

theorem fractionalPath_ratio (a num f : Nat) {denom : Nat} (h : denom ≠ 0) :
    (fractionalPath a num denom f).ratio = a + (num : ℚ) / denom := by
  simp only [TripleZ.ratio, fractionalPath]
  push_cast
  field_simp
  ring

/-- With the exact fraction `P2` is the remainder (R77). -/
theorem fractionalPath_exact_p2 (a num denom : Nat) :
    (fractionalPath a num denom (fracExact num denom)).p2 = (128 * num % denom : ℕ) := by
  have split : ((denom * (128 * num / denom) + 128 * num % denom : ℕ) : ℤ) = (128 * num : ℕ) := by
    rw [Nat.div_add_mod]
  push_cast at split ⊢
  simp only [fractionalPath, fracExact]
  push_cast
  linarith

/-- One more in `frac` takes `denom` off `P2`. -/
theorem fractionalPath_succ_p2 (a num denom f : Nat) :
    (fractionalPath a num denom (f + 1)).p2 = (fractionalPath a num denom f).p2 - denom := by
  simp only [fractionalPath]; push_cast; ring

theorem frac_mul_self {mode : Config.FracMode} {n t : Nat} (n_pos : 0 < n) (t_pos : 0 < t)
    (fits : mode = .exact ∨ n * t < 2 ^ 24) : frac mode (n * t) t = 128 * n := by
  cases mode with
  | exact => exact fracExact_mul_self t_pos
  | binary32 => exact fracB32_mul_self n_pos t_pos (fits.resolve_left (by decide))

theorem fractionalPath_mul_self (a n t : Nat) :
    fractionalPath a (n * t) t (128 * n) = { p1 := (simplifiedPath a n).p1, p2 := 0, p3 := t } := by
  simp only [fractionalPath, simplifiedPath, TripleZ.mk.injEq]
  push_cast
  exact ⟨rfl, by ring, trivial⟩

/-- The general path on `(n*t)/t` gives the simplified path's `P1`, 0 and `t` (R79). -/
theorem encodeMsZ_mul_self {mode : Config.FracMode} (div : U32) {n t : Nat} (n_pos : 0 < n) (t_large : 1 < t)
    (fits : n * t < 2 ^ 32) (held : mode = .exact ∨ n * t < 2 ^ 24) :
    encodeMsZ mode div (BitVec.ofNat 32 (n * t)) (BitVec.ofNat 32 t) =
      { p1 := (simplifiedPath div.toNat n).p1, p2 := 0, p3 := t } := by
  have t_pos : 0 < t := by omega
  have product : (BitVec.ofNat 32 (n * t)).toNat = n * t := Nat.mod_eq_of_lt fits
  have divisor : (BitVec.ofNat 32 t).toNat = t := Nat.mod_eq_of_lt ((Nat.le_mul_of_pos_left t n_pos).trans_lt fits)
  have notWhole : BitVec.ofNat 32 (n * t) ≠ 0 :=
    ne_of_apply_ne BitVec.toNat (by rw [product]; exact (Nat.mul_pos n_pos t_pos).ne')
  have notUnit : BitVec.ofNat 32 t ≠ 1 := ne_of_apply_ne BitVec.toNat (by rw [divisor]; exact t_large.ne')
  rw [encodeMsZ_general mode div notWhole notUnit, product, divisor, frac_mul_self n_pos t_pos held,
    fractionalPath_mul_self]

/-! ### Serialisation -/

/-- UNPACK recovers the bits PACK keeps (R94): each bit comes from one of the bytes. -/
theorem unpack_pack (t : Triple) :
    unpack (pack t) = { p1 := (t.p1.setWidth 18).setWidth 32, p2 := (t.p2.setWidth 20).setWidth 32,
                        p3 := (t.p3.setWidth 20).setWidth 32 } := by
  simp only [unpack, pack, Triple.mk.injEq]
  refine ⟨?_, ?_, ?_⟩ <;> ext i hi
  all_goals
    simp only [BitVec.getElem_or, BitVec.getElem_shiftLeft, BitVec.getElem_setWidth, BitVec.getLsbD_extractLsb',
      BitVec.getLsbD_or, BitVec.getLsbD_shiftLeft, BitVec.getLsbD_setWidth]
    grind

/-- The low `w` bits of `trunc_32` of a formula are the formula modulo `2^w` (R75). -/
theorem toNat_setWidth_ofInt (z : ℤ) {w : Nat} (narrow : w ≤ 32) :
    (((BitVec.ofInt 32 z).setWidth w).toNat : ℤ) = z % 2 ^ w := by
  have divides : ((2 : ℤ) ^ w) ∣ 2 ^ 32 := pow_dvd_pow 2 narrow
  rw [BitVec.toNat_setWidth, BitVec.toNat_ofInt, Int.natCast_mod, Int.toNat_of_nonneg (Int.emod_nonneg _ (by decide))]
  push_cast
  exact Int.emod_emod_of_dvd z divides

/-- A formula's value that fits its field is what the field's bits stand for (R83). -/
theorem toNat_field_ofInt {z : ℤ} {w : Nat} (narrow : w ≤ 32) (low : 0 ≤ z) (high : z < 2 ^ w) :
    ((((BitVec.ofInt 32 z).setWidth w).setWidth 32).toNat : ℤ) = z := by
  rw [BitVec.toNat_setWidth_of_le narrow, toNat_setWidth_ofInt z narrow, Int.emod_eq_of_lt low high]

theorem setWidth_ofInt_congr {z z' : ℤ} {w : Nat} (narrow : w ≤ 32) (same : z % 2 ^ w = z' % 2 ^ w) :
    (BitVec.ofInt 32 z).setWidth w = (BitVec.ofInt 32 z').setWidth w := by
  apply BitVec.eq_of_toNat_eq
  zify
  rw [toNat_setWidth_ofInt z narrow, toNat_setWidth_ofInt z' narrow, same]

/-- Words with the same low `w` bits have the same bit fields below `w`. -/
theorem extractLsb'_congr {x y : U32} {w start len : Nat} (inside : start + len ≤ w)
    (same : x.setWidth w = y.setWidth w) : x.extractLsb' start len = y.extractLsb' start len := by
  rw [← BitVec.extractLsb'_setWidth_of_le inside, same, BitVec.extractLsb'_setWidth_of_le inside]

/-- PACK reads only the low 18, 20 and 20 bits (R75). -/
theorem pack_congr {t t' : Triple} (p1 : t.p1.setWidth 18 = t'.p1.setWidth 18)
    (p2 : t.p2.setWidth 20 = t'.p2.setWidth 20) (p3 : t.p3.setWidth 20 = t'.p3.setWidth 20) : pack t = pack t' := by
  simp (disch := decide) only [pack, extractLsb'_congr (same := p1), extractLsb'_congr (same := p2),
    extractLsb'_congr (same := p3)]

theorem TripleZ.inRange_iff {z : TripleZ} :
    z.inRange = true ↔
      (0 ≤ z.p1 ∧ z.p1 < 2 ^ 18) ∧ (0 ≤ z.p2 ∧ z.p2 < 2 ^ 20) ∧ (1 ≤ z.p3 ∧ z.p3 < 2 ^ 20) := by
  simp only [TripleZ.inRange, Bool.and_eq_true, decide_eq_true_eq, and_assoc]

end Sys2Proof.Machine
end

section
/-!
PROOFS. The statements of the family of spec/40_divider_encoder.md.
-/

namespace Sys2Proof.Proofs

open Sys2Proof.Machine

/-- Settles O15: the exponent brackets `x`, and the significand is the nearest integer with ties to even
(`Ratio.rn32_nearestEven`). -/
theorem binary32RoundingIsNearestEven : Obligations.Binary32RoundingIsNearestEven := by
  intro x num_pos den_pos
  obtain ⟨low, high⟩ := Ratio.exponent_bounds ⟨num_pos, den_pos⟩
  obtain ⟨m, ⟨near, even⟩, rounded⟩ := Ratio.rn32_nearestEven ⟨num_pos, den_pos⟩
  exact ⟨x.exponent, m, low, high, near, even, rounded⟩

/-- Settles O16: `FRAC_exact` and the next integer bracket the quotient in units of 1/128, and rounding crosses
neither (`Ratio.rn32_times_128`). -/
theorem binary32FractionIsExactOrOneMore : Obligations.Binary32FractionIsExactOrOneMore := by
  intro num denom num_pos denom_pos num_fits denom_fits frac_fits
  obtain ⟨q, pos, value, rounded⟩ := quotient32_eq_rn32 num_pos denom_pos num_fits denom_fits
  have exact_floor : fracExact num denom = ⌊128 * q.val⌋₊ := by rw [value, fracExact_eq_floor]
  have nonneg : 0 ≤ 128 * q.val := mul_nonneg (by norm_num) q.val_nonneg
  have low : (fracExact num denom : ℚ) ≤ 128 * q.rn32.val :=
    (Ratio.rn32_times_128 pos (by omega)).1 (exact_floor ▸ Nat.floor_le nonneg)
  have high : 128 * q.rn32.val ≤ (fracExact num denom + 1 : ℕ) :=
    (Ratio.rn32_times_128 pos frac_fits).2 (by rw [exact_floor]; exact_mod_cast (Nat.lt_floor_add_one _).le)
  have atLeast : fracExact num denom ≤ fracB32 num denom := by
    rw [fracB32_eq_floor, rounded]; exact Nat.le_floor low
  have atMost : fracB32 num denom ≤ fracExact num denom + 1 := by
    rw [fracB32_eq_floor, rounded]; exact Nat.floor_le_of_le high
  omega

/-- Settles O17: of O16's two values the greater is too far away (`rounded_up_lt_fracExact_succ`). -/
theorem fractionModesAgreeBelowTwoToThe18 : Obligations.FractionModesAgreeBelowTwoToThe18 := by
  intro num denom num_pos proper small
  have denom_pos : 0 < denom := by omega
  have frac_small : fracExact num denom < 128 := Nat.div_lt_of_lt_mul (by rw [mul_comm]; omega)
  refine (binary32FractionIsExactOrOneMore num denom num_pos denom_pos (by omega) (by omega) (by omega)).resolve_right
    fun oneMore => ?_
  obtain ⟨q, pos, value, rounded⟩ := quotient32_eq_rn32 num_pos denom_pos (by omega) (by omega)
  have lessThanOne : q.val < 1 := by rw [value, div_lt_one (by positivity)]; exact_mod_cast proper
  have reached : ((fracExact num denom + 1 : ℕ) : ℚ) ≤ 128 * q.rn32.val := by
    rw [← oneMore, fracB32_eq_floor, rounded]
    exact Nat.floor_le (mul_nonneg (by norm_num) q.rn32.val_nonneg)
  push_cast at reached
  linarith [Ratio.rn32_le_of_proper pos lessThanOne, value ▸ rounded_up_lt_fracExact_succ (num := num) denom_pos small]

/-- Settles O18: under `exact` `P2` is the remainder, and one more in `frac` takes `denom` off it. -/
theorem fractionalP2IsTheRemainder : Obligations.FractionalP2IsTheRemainder := by
  intro a num denom denom_pos
  refine ⟨fractionalPath_exact_p2 a num denom, fun oneMore => ?_⟩
  have below : 128 * num % denom < denom := Nat.mod_lt _ denom_pos
  rw [oneMore, fractionalPath_succ_p2, fractionalPath_exact_p2]
  omega

/-- Settles O19: the integer and the fractional path stand for their ratio, whatever `frac` is
(`fractionalPath_ratio`). -/
theorem tripleStandsForTheRatio : Obligations.TripleStandsForTheRatio := by
  intro mode num denom denom0
  have denomNat : denom.toNat ≠ 0 := by simpa [BitVec.toNat_eq] using denom0
  refine ⟨fun mult => ?_, fun div notSimplified => ?_⟩
  · change (encodePllZ mode mult num denom).ratio = _
    by_cases whole : num = 0
    · subst whole
      rw [encodePllZ_integer, integerPath_ratio]
      simp
    · rw [encodePllZ_fractional _ _ _ whole, fractionalPath_ratio _ _ _ denomNat]
  · change (encodeMsZ mode div num denom).ratio = _
    by_cases whole : num = 0
    · subst whole
      rw [encodeMsZ_integer, integerPath_ratio]
      simp
    · rw [encodeMsZ_general _ _ whole (notSimplified.resolve_left whole), fractionalPath_ratio _ _ _ denomNat]

/-- Settles O20: each path has its own ratio (`simplifiedPath_ratio`), and the general path divides `num*t` by `t`
without loss (`encodeMsZ_mul_self`). -/
theorem simplifiedPathIsNotTheGeneralOne : Obligations.SimplifiedPathIsNotTheGeneralOne := by
  intro mode div num notWhole
  rw [encodeMsZ_simplified mode div notWhole]
  have num_pos : 0 < num.toNat := Nat.pos_of_ne_zero (by simpa [BitVec.toNat_eq] using notWhole)
  refine ⟨simplifiedPath_ratio _ _, ?_, fun t t_large fits held => encodeMsZ_mul_self div num_pos t_large fits held⟩
  rw [BitVec.toNat_eq, ← Nat.cast_inj (R := ℚ), add_sub_assoc, add_right_inj]
  change 2 * (num.toNat : ℚ) - 1 = num.toNat ↔ (num.toNat : ℚ) = (1 : ℕ)
  rw [Nat.cast_one]
  constructor <;> intro h <;> linarith

/-- Settles O24: UNPACK recovers the low bits (`unpack_pack`), and values in range have no others. -/
theorem inRangeTriplesSurviveSerialisation : Obligations.InRangeTriplesSurviveSerialisation := by
  intro z inRange
  obtain ⟨⟨low1, high1⟩, ⟨low2, high2⟩, low3, high3⟩ := TripleZ.inRange_iff.1 inRange
  rw [unpack_pack]
  exact ⟨toNat_field_ofInt (by decide) low1 high1, toNat_field_ofInt (by decide) low2 high2,
    toNat_field_ofInt (by decide) (by omega) high3⟩

/-- Settles O25: PACK reads only the low bits (`pack_congr`), and `trunc_32` keeps them. -/
theorem bytesDependOnTheLowBitsOnly : Obligations.BytesDependOnTheLowBitsOnly :=
  fun _ _ same1 same2 same3 => pack_congr (setWidth_ofInt_congr (by decide) same1)
    (setWidth_ofInt_congr (by decide) same2) (setWidth_ofInt_congr (by decide) same3)

/-- Settles O11: the formulas of the path taken, truncated once; the variant checks them first. -/
theorem encPllReturnsThePackedTriple : Obligations.EncPllReturnsThePackedTriple := by
  intro mult num denom s
  refine ⟨fun defined => ?_, fun mode => withTriple_checkRange_on ..⟩
  rw [exec_encPll_eq mult defined]
  by_cases whole : num = 0
  · subst whole
    rw [encodePllZ_integer, integerPath_trunc]; rfl
  · rw [encodePllZ_fractional _ _ _ whole, fractionalPath_trunc, if_neg whole]; rfl

/-- Settles O12: as O11, with the simplified path between the other two. -/
theorem encMsReturnsThePackedTriple : Obligations.EncMsReturnsThePackedTriple := by
  intro div num denom s
  refine ⟨fun defined => ?_, fun mode => withTriple_checkRange_on ..⟩
  rw [exec_encMs_eq div defined]
  by_cases whole : num = 0
  · subst whole
    rw [encodeMsZ_integer, integerPath_trunc]; rfl
  · rw [if_neg whole]
    by_cases unit : denom = 1
    · subst unit
      rw [encodeMsZ_simplified _ _ whole, simplifiedPath_trunc]; rfl
    · rw [encodeMsZ_general _ _ whole unit, fractionalPath_trunc, if_neg unit]; rfl

/-- Settles O13: the integer path, whose `P1` is negative and wraps for `mult < 4`. -/
theorem integerModeTripleOfAPll : Obligations.IntegerModeTripleOfAPll := by
  intro mult denom s
  refine ⟨BitVec.ofInt 32 (128 * mult.toNat - 512), ?_, ?_⟩
  · rw [exec_encPll_eq mult (absurd rfl), encodePllZ_integer, integerPath_trunc]; rfl
  · have : mult.toNat < 256 := mult.isLt
    rw [BitVec.toNat_ofInt]
    omega

/-- Settles O14: each of the four operations first asks whether the fraction is defined. -/
theorem fractionOverZeroIsRefused : Obligations.FractionOverZeroIsRefused := by
  intro num s notWhole
  have undefined : fracUndefined Config.specified num 0 = true := (fracUndefined_specified num 0).2 ⟨notWhole, rfl⟩
  exact ⟨fun _ => if_pos undefined, fun _ => if_pos undefined, fun _ _ => if_pos undefined,
    fun _ _ _ => if_pos undefined⟩

/-- Settles O21, by computing the six rows. -/
theorem encoderCornerCases : Obligations.EncoderCornerCases :=
  ⟨by decide, by decide, by decide, by decide, by decide, by decide⟩

end Sys2Proof.Proofs
end

section
/-!
PROOFS. The Register Writer's bytes and addresses: the packed bytes as concatenated bit fields
(spec/41_register_writer.md R91), the words UNPACK recovers (R94), and a divider block's writes where the addresses wrap
modulo 256 (R93, D23).
-/

namespace Sys2Proof.Machine

open Sys2Proof.Safety

/-! ### Bit fields -/

/-- `B[5]` of PACK holds its two nibbles side by side. -/
theorem nibbles_eq_append (high low : BitVec 4) :
    ((high.setWidth 8 <<< 4) ||| low.setWidth 8) = high ++ low := by
  rw [BitVec.append_def, BitVec.shiftLeftZeroExtend_eq, BitVec.setWidth'_eq]

/-- A word survives the truncation to a field exactly when it fits the field. -/
theorem setWidth_field_eq_self_iff {x : U32} {w : Nat} (narrow : w ≤ 32) :
    (x.setWidth w).setWidth 32 = x ↔ x.toNat < 2 ^ w := by
  rw [BitVec.toNat_eq, BitVec.toNat_setWidth_of_le narrow, BitVec.toNat_setWidth, Nat.mod_eq_iff_lt (by positivity)]

/-! ### Bytes written from any base on -/

/-- `blockEvents` for any number of bytes: one write each, to increasing addresses modulo 256 (R93, R35). -/
def bytesEvents (base : Byte) : List Byte → List Event
  | [] => []
  | v :: vs => .regWrite base v :: bytesEvents (base + 1) vs

theorem blockEvents_eq_bytesEvents (base : Byte) (b : Block) : blockEvents base b = bytesEvents base b.toList := by
  simp [blockEvents, bytesEvents, Block.toList, BitVec.add_assoc]

/-- No event writes beyond the 256 registers. -/
theorem lastWrite_eq_none_of_le (es : List Event) {a : Nat} (beyond : 256 ≤ a) : lastWrite es a = none := by
  induction es with
  | nil => rfl
  | cons e es ih =>
    cases e with
    | regWrite b v =>
      have elsewhere : b.toNat ≠ a := (b.isLt.trans_le beyond).ne
      simp [lastWrite, ih, elsewhere]
    | _ => exact ih

/-- The `i`-th address from `base` on, wrapped or not, holds the `i`-th byte, if the bytes do not go round the whole
register file. -/
theorem lastWrite_bytesEvents (base : Byte) (vs : List Byte) (fits : vs.length ≤ 256) {i : Nat} (hi : i < 256) :
    lastWrite (bytesEvents base vs) ((base.toNat + i) % 256) = vs[i]? := by
  induction vs generalizing base i with
  | nil => rfl
  | cons v vs ih =>
    have tailFits : vs.length < 256 := fits
    have next : (base + 1).toNat = (base.toNat + 1) % 256 := BitVec.toNat_add ..
    cases i with
    | zero =>
      have untouched : lastWrite (bytesEvents (base + 1) vs) base.toNat = none := by
        have last : base.toNat = ((base + 1).toNat + 255) % 256 := by omega
        rw [last, ih _ tailFits.le (by decide), List.getElem?_eq_none (by omega)]
      have here : (base.toNat + 0) % 256 = base.toNat := by omega
      rw [here, bytesEvents, lastWrite, untouched, if_pos rfl, Option.none_or, List.getElem?_cons_zero]
    | succ i =>
      have shifted : (base.toNat + (i + 1)) % 256 = ((base + 1).toNat + i) % 256 := by omega
      have notHere : base.toNat ≠ ((base + 1).toNat + i) % 256 := by omega
      rw [shifted, bytesEvents, lastWrite, ih _ tailFits.le (by omega), if_neg notHere, Option.or_none,
        List.getElem?_cons_succ]

/-- A divider block's last write at the `i`-th address from its base, wrapped or not. -/
theorem lastWrite_blockEvents_wrapped (base : Byte) (b : Block) {i : Nat} (hi : i < 256) :
    lastWrite (blockEvents base b) ((base.toNat + i) % 256) = b.toList[i]? := by
  rw [blockEvents_eq_bytesEvents, lastWrite_bytesEvents base b.toList (by simp [Block.toList]) hi]

/-- A divider block writes nowhere but to its eight addresses. -/
theorem lastWrite_blockEvents_eq_none (base : Byte) (b : Block) {a : Nat}
    (outside : ∀ i : Nat, i < 8 → a ≠ (base.toNat + i) % 256) : lastWrite (blockEvents base b) a = none := by
  rcases Nat.lt_or_ge a 256 with inside | beyond
  · obtain ⟨i, hi, rfl⟩ : ∃ i < 256, a = (base.toNat + i) % 256 :=
      ⟨(a + (256 - base.toNat)) % 256, by omega, by omega⟩
    have pastBlock : 8 ≤ i := not_lt.1 fun small => outside i small rfl
    rw [lastWrite_blockEvents_wrapped base b hi]
    exact List.getElem?_eq_none pastBlock
  · exact lastWrite_eq_none_of_le _ beyond

end Sys2Proof.Machine
end

section
/-!
PROOFS. The statements of the family of spec/41_register_writer.md.
-/

namespace Sys2Proof.Proofs

open Sys2Proof.Machine Sys2Proof.Safety

/-- Settles O23: UNPACK recovers the low bits (`unpack_pack`), which are the whole word exactly when it fits its
field. -/
theorem unpackOfPackTruncates : Obligations.UnpackOfPackTruncates := by
  intro t
  refine ⟨unpack_pack t, ?_⟩
  obtain ⟨p1, p2, p3⟩ := t
  simp (disch := decide) only [unpack_pack, Triple.mk.injEq, setWidth_field_eq_self_iff]

/-- Settles O27: the eight writes are recorded (`Grew.writeBlock`), each at an address of its own, wrapped or not. -/
theorem wrDivblkWritesEightRegisters : Obligations.WrDivblkWritesEightRegisters := by
  intro base p1 p2 p3 s
  have recorded := (Grew.writeBlock s base (pack ⟨p1, p2, p3⟩)).regs
  refine ⟨(s.writeBlock base (pack ⟨p1, p2, p3⟩)).regs, ?_, fun i hi => ?_, fun a outside => ?_⟩
  · rw [Completes.wrDivblk.exec_eq, State.writeBlock_frame]
    rfl
  · have written : i < (pack ⟨p1, p2, p3⟩).toList.length := hi
    rw [recorded, lastWrite_blockEvents_wrapped base _ (by omega), List.getElem?_eq_getElem written, Option.some_or]
  · rw [recorded, lastWrite_blockEvents_eq_none base _ outside, Option.none_or]

/-- Settles O22: the two bytes that PACK builds from narrower fields are those fields side by side. -/
theorem packReturnsTheEightBytes : Obligations.PackReturnsTheEightBytes := by
  intro p1 p2 p3 s
  rw [← nibbles_eq_append]
  have padded : (p1.extractLsb' 16 2).setWidth 8 = (0 : BitVec 6) ++ p1.extractLsb' 16 2 :=
    BitVec.setWidth_eq_append (by decide)
  rw [← padded]
  rfl

/-- Settles O26: one event, and the image reads it back (`Memory.read_write`). -/
theorem wrRegWritesOneRegister : Obligations.WrRegWritesOneRegister :=
  fun addr val s => ⟨_, rfl, fun a => Memory.read_write s.regs addr.toNat a val⟩

end Sys2Proof.Proofs
end

section
/-!
PROOFS. The family of spec/42_synth_model.md: the whole state each sequence leaves, the transitions of `synth.state`
(R101), and what POLL and CHANGE_FREQ leave alone (R109).
-/

namespace Sys2Proof.Machine

open Sys2Proof.Safety

/-! ### The whole state after each sequence -/

/-- INIT touches no field of the sequencer or of the environment (R100). -/
theorem initSeq_frame (load : CrystalLoad) (s : State) :
    initSeq load s = { s with
      regs := (initSeq load s).regs
      synthState := .disabled
      xtal := some load
      pllA := none
      pllB := none
      ms0 := none
      ms1 := none
      ms2 := none
      trace := s.trace ++ initEvents load } := by
  rw [← (Grew.initSeq load s).trace]
  rfl

/-- The test of R102 sets `synth.state` or nothing. -/
theorem State.configureIfBoth_frame (s : State) :
    s.configureIfBoth = { s with synthState := s.configureIfBoth.synthState } := by
  unfold State.configureIfBoth
  split <;> rfl

/-- SETUP_PLL touches the image, its record, `synth.state` and the trace (R102). -/
theorem setupPllWith_frame (p : PllId) (r : PllRecord) (t : Triple) (s : State) :
    setupPllWith p r t s = { s with
      regs := (setupPllWith p r t s).regs
      synthState := if (p = .a ∨ s.pllA.isSome) ∧ (p = .b ∨ s.pllB.isSome) then .configured else s.synthState
      pllA := if p = .a then some r else s.pllA
      pllB := if p = .b then some r else s.pllB
      trace := s.trace ++ (blockEvents (pllBase p) (pack t) ++ [.regWrite 177 (pllResetByte p)]) } := by
  rw [← setupPllWith_synthState p r t s, ← (Grew.setupPllWith p r t s).trace, setupPllWith,
    State.configureIfBoth_frame]
  rfl

/-- SETUP_MS touches the image, its record and the trace (R104). -/
theorem setupMsWith_frame (o : OutputId) (r : MsRecord) (t : Triple) (s : State) :
    setupMsWith o r t s = { s with
      regs := (setupMsWith o r t s).regs
      ms0 := if o = .out0 then some r else s.ms0
      ms1 := if o = .out1 then some r else s.ms1
      ms2 := if o = .out2 then some r else s.ms2
      trace := s.trace ++ (blockEvents (msBase o) (pack t) ++ [.regWrite (msCtrl o) (ctrlByte r.src r.num)]) } := by
  rw [← (Grew.setupMsWith o r t s).trace]
  rfl

/-- The control byte with integer mode as a proposition. -/
theorem ctrlByte_eq_or (src : PllId) (num : U32) :
    ctrlByte src num = 0x0F ||| (if src = .b then 0x20 else 0) ||| (if num = 0 then 0x40 else 0) := by
  simp only [ctrlByte, isInt_eq_true]

/-! ### ENABLE_OUTPUTS in the image (R106) -/

theorem read_enableSeq (enabled : Bool) (s : State) (a : Nat) :
    Memory.read (enableSeq enabled s).regs a = if a = 3 then some (enableMask enabled) else Memory.read s.regs a :=
  Memory.read_write s.regs 3 a (enableMask enabled)

/-- The enable mask cannot turn on an output whose control register powers it down (D15). -/
theorem outputEnabled_enableSeq_of_powerDown (enabled : Bool) {s : State} {o : OutputId} {c : Byte}
    (ctrl : Memory.read s.regs (msCtrl o).toNat = some c) (down : c.getLsbD 7 = true) :
    (enableSeq enabled s).outputEnabled o = false := by
  have notMask : (msCtrl o).toNat ≠ 3 := by have := msCtrl_range o; omega
  have ctrl' : Memory.read (enableSeq enabled s).regs (msCtrl o).toNat = some c := by
    rw [read_enableSeq, if_neg notMask, ctrl]
  rw [outputEnabled_of_read ((read_enableSeq enabled s 3).trans (if_pos rfl)) ctrl', down, Bool.not_true,
    Bool.and_false]

/-! ### BOOT and POLL, record by record (R101, R109) -/

/-- BOOT's two PLL set-ups configure the synthesizer: the second finds the first one's record (R101). -/
@[simp] theorem bootPlls_synthState (s : State) : (bootPlls s).synthState = .configured := by
  simp [bootPlls]

@[simp] theorem bootState_synthState (s : State) : (bootState s).synthState = .configured := by
  simp [bootState]

/-- A confirmation, whether it commits or discards, leaves the PLLs, the crystal load and output 2 alone. -/
theorem confirmState_configuration (c : Bool) (s : State) :
    (confirmState c s).pllA = s.pllA ∧ (confirmState c s).pllB = s.pllB ∧ (confirmState c s).xtal = s.xtal ∧
      (confirmState c s).ms2 = s.ms2 ∧ (confirmState c s).synthState = s.synthState := by
  unfold confirmState
  split <;> simp

theorem confirmState_synthState (c : Bool) (s : State) : (confirmState c s).synthState = s.synthState := by
  obtain ⟨-, -, -, -, synthState⟩ := confirmState_configuration c s
  exact synthState

/-- R109: POLL and CHANGE_FREQ keep what BOOT configured apart from the two retuned outputs. -/
theorem Completes.configuration_frame {i : Instr} {s t : State} {es : List Event} (h : Completes i s es t)
    (polls : i = .poll ∨ ∃ level, i = .changeFreq level) :
    t.pllA = s.pllA ∧ t.pllB = s.pllB ∧ t.xtal = s.xtal ∧ t.ms2 = s.ms2 ∧ t.synthState = s.synthState := by
  cases h with
  | changeFreq => simp
  | pollSample => exact ⟨rfl, rfl, rfl, rfl, rfl⟩
  | pollConfirm => exact confirmState_configuration ..
  | @pollBoth _ c => exact confirmState_configuration c (sampleState c s)
  | _ => simp at polls

/-! ### The registers of a frequency change (R126) -/

/-- Register 3, or a register of output 0 or 1. -/
def retuneAddr (a : Byte) : Bool :=
  a == 3 || a == 16 || a == 17 || (42 ≤ a.toNat && a.toNat ≤ 57)

theorem retuneAddr_iff {a : Byte} :
    retuneAddr a = true ↔ a = 3 ∨ a = 16 ∨ a = 17 ∨ (42 ≤ a.toNat ∧ a.toNat ≤ 57) := by
  simp [retuneAddr, or_assoc]

theorem retuneAddr_changeFreqEvents (level : Bool) :
    (writesOf (changeFreqEvents level)).all (fun w => retuneAddr w.1) = true := by
  unfold changeFreqEvents
  split <;> rfl

/-- A confirmation writes the registers of CHANGE_FREQ or none. -/
theorem retuneAddr_confirm (c level : Bool) :
    (writesOf ([.delay Config.settleMs, .pinRead level] ++ if level = c then [] else changeFreqEvents (!c))).all
      (fun w => retuneAddr w.1) = true := by
  rw [writesOf_append, List.all_append]
  split
  · rfl
  · exact retuneAddr_changeFreqEvents _

/-- R126, R131: the writes of POLL and CHANGE_FREQ stay within the registers of the two outputs and the mask. -/
theorem Completes.writes_retuneAddr {i : Instr} {s t : State} {es : List Event} (h : Completes i s es t)
    (polls : i = .poll ∨ ∃ level, i = .changeFreq level) :
    (writesOf es).all (fun w => retuneAddr w.1) = true := by
  cases h with
  | changeFreq => exact retuneAddr_changeFreqEvents _
  | pollSample => rfl
  | pollConfirm => exact retuneAddr_confirm ..
  | pollBoth =>
    rw [writesOf_append, List.all_append, retuneAddr_confirm]
    rfl
  | _ => simp at polls

end Sys2Proof.Machine
end

section
/-!
PROOFS. The statements of the family of spec/42_synth_model.md on single operations.
-/

namespace Sys2Proof.Proofs

open Sys2Proof.Machine Sys2Proof.Safety

/-- Settles O29: INIT's frame (`initSeq_frame`), its writes recorded. -/
theorem initForcesTheOutputsOff : Obligations.InitForcesTheOutputsOff := by
  intro load s
  refine ⟨(initSeq load s).regs, ?_, (Grew.initSeq load s).regs⟩
  rw [Completes.init.exec_eq, initSeq_frame]
  rfl

/-- Settles O30: SETUP_PLL's frame (`setupPllWith_frame`), its nine writes recorded. -/
theorem setupPllProgramsThePll : Obligations.SetupPllProgramsThePll := by
  intro p mult num denom s defined
  refine ⟨_, _, ?_, ?_, (Grew.setupPllWith p { mult := mult, num := num, denom := denom }
    (encodePllZ .binary32 mult num denom).trunc s).regs⟩
  · cases p <;> rfl
  · rw [(Completes.setupPll defined).exec_eq, setupPllWith_frame]
    rfl

/-- Settles O31: SETUP_MS's frame (`setupMsWith_frame`), its nine writes recorded. -/
theorem setupMsProgramsTheOutput : Obligations.SetupMsProgramsTheOutput := by
  intro o src div num denom s defined
  refine ⟨_, _, { div := div, num := num, denom := denom, src := src, intMode := num == 0 }, rfl, ?_, ?_,
    (Grew.setupMsWith o { div := div, num := num, denom := denom, src := src, intMode := num == 0 }
      (encodeMsZ .binary32 div num denom).trunc s).regs⟩
  · rw [ctrlByte_eq_or]
    cases o <;> rfl
  · rw [(Completes.setupMs defined).exec_eq, setupMsWith_frame]
    rfl

/-- Settles O36: of all operations only INIT, SETUP_PLL and BOOT have a write to `synth.state` in their sequence. -/
theorem synthStateTransitions : Obligations.SynthStateTransitions := by
  intro i s t h
  obtain ⟨es, completes⟩ := exec_completes h
  cases completes with
  | encPll | encMs | pack | wrReg | wrDivblk | init | setupMs | enableOutputs | pollSample => rfl
  | @setupPll p => cases p <;> simp
  | changeFreq => simp
  | boot => exact bootState_synthState s
  | pollConfirm | pollBoth => exact confirmState_synthState ..

/-- Settles O45: what POLL and CHANGE_FREQ keep (`Completes.configuration_frame`) and where they write
(`Completes.writes_retuneAddr`). -/
theorem pollsLeaveThePllsUntouched : Obligations.PollsLeaveThePllsUntouched := by
  intro i s t polls h
  obtain ⟨es, completes⟩ := exec_completes h
  obtain ⟨pllA, pllB, xtal, ms2, synthState⟩ := completes.configuration_frame polls
  exact ⟨pllA, pllB, xtal, ms2, synthState, es, completes.grew.trace, completes.grew.regs,
    fun w written => retuneAddr_iff.1 (List.all_eq_true.1 (completes.writes_retuneAddr polls) w written)⟩

/-- Settles O32: one write to register 3 (`read_enableSeq`), which powers no output up
(`outputEnabled_enableSeq_of_powerDown`). -/
theorem enableOutputsWritesTheInvertedMask : Obligations.EnableOutputsWritesTheInvertedMask :=
  fun enabled s => ⟨(enableSeq enabled s).returns .nothing, rfl, rfl, read_enableSeq enabled s,
    fun _ _ ctrl down => outputEnabled_enableSeq_of_powerDown enabled ctrl down⟩

end Sys2Proof.Proofs
end

section
/-!
PROOFS. The wired system (spec/43_mode_controller.md R120): BOOT establishes `WiredRunning`, each half of POLL keeps it,
and so every run from reset is in it from its first step on.
-/

namespace Sys2Proof.Safety

open Sys2Proof.Machine

/-! ### The writes of BOOT and of a frequency change meet the duties -/

/-- What comes later does not change how the block began (R161). -/
theorem BootFirst.append {es : List Event} (h : BootFirst es) (more : List Event) : BootFirst (es ++ more) := by
  obtain ⟨level, later, rfl⟩ := h
  exact ⟨level, later ++ more, List.append_assoc ..⟩

/-- The events of a frequency change up to its two bytes. -/
theorem changeFreqEvents_eq_retuneEvents (level : Bool) : ∃ d c, changeFreqEvents level = retuneEvents d c := by
  unfold changeFreqEvents
  split <;> exact ⟨_, _, rfl⟩

/-- A frequency change ends with `3:00`. -/
theorem getLast?_append_changeFreqEvents (ws : List (Byte × Byte)) (level : Bool) :
    (ws ++ writesOf (changeFreqEvents level)).getLast? = some (3, 0x00) := by
  obtain ⟨d, c, events⟩ := changeFreqEvents_eq_retuneEvents level
  rw [events, List.getLast?_append]
  rfl

theorem meetsOrderingDuties_iff {ws : List (Byte × Byte)} :
    MeetsOrderingDuties ws = true ↔ InitFirst ws = true ∧ ResetAfterBlock 0 ws = true ∧
      OutputsOffAround none ws = true ∧ PllsBeforeOutputs false false ws = true ∧ OnceEach ws = true ∧
      ControlAfterBlock 0 ws = true ∧ OnlyWired ws = true := by
  simp only [MeetsOrderingDuties, Bool.and_eq_true, and_assoc]

/-- R166: a frequency change writes neither the crystal load nor a PLL reset. -/
theorem onceEach_append_retuneEvents {ws : List (Byte × Byte)} (h : OnceEach ws = true) (d c : Byte) :
    OnceEach (ws ++ writesOf (retuneEvents d c)) = true := by
  simpa [OnceEach, retuneEvents, writesOf] using h

/-- A frequency change may follow wherever the mask was opened last. -/
theorem meetsOrderingDuties_append_changeFreq {ws : List (Byte × Byte)} (h : MeetsOrderingDuties ws = true)
    (last : ws.getLast? = some (3, 0x00)) (level : Bool) :
    MeetsOrderingDuties (ws ++ writesOf (changeFreqEvents level)) = true := by
  obtain ⟨initFirst, resets, outputsOff, plls, once, controls, wired⟩ := meetsOrderingDuties_iff.1 h
  have notEmpty : ws ≠ [] := by rintro rfl; cases last
  obtain ⟨d, c, events⟩ := changeFreqEvents_eq_retuneEvents level
  rw [events]
  refine meetsOrderingDuties_iff.2 ⟨InitFirst.append initFirst notEmpty _, ResetAfterBlock.append resets last rfl,
    OutputsOffAround.append outputsOff last rfl, PllsBeforeOutputs.append plls last rfl,
    onceEach_append_retuneEvents once d c, ControlAfterBlock.append controls last rfl, ?_⟩
  rw [OnlyWired_append, wired]
  rfl

/-- R162: what begins with INIT's writes begins as it has to. -/
theorem initFirst_initEvents (later : List (Byte × Byte)) :
    InitFirst (writesOf (initEvents Config.bootXtal) ++ later) = true := by
  simp [InitFirst, initEvents, writesOf]

/-- BOOT meets every ordering duty (R171). -/
theorem meetsOrderingDuties_boot (level : Bool) :
    MeetsOrderingDuties (writesOf (bootPrefix ++ [.pinRead level] ++ changeFreqEvents level)) = true := by
  obtain ⟨d, c, events⟩ := changeFreqEvents_eq_retuneEvents level
  rw [events]
  refine meetsOrderingDuties_iff.2 ⟨initFirst_initEvents _, rfl, rfl, rfl, rfl, rfl, rfl⟩

/-! ### A running system goes on running -/

/-- What BOOT configures and no later step of the wired system touches (R109), with the level committed. -/
structure ConfiguredByBoot (s : State) (level : Bool) : Prop where
  configured : s.synthState = .configured
  xtal : s.xtal = some Config.bootXtal
  pllA : s.pllA = some { mult := 25, num := 193181, denom := 250000 }
  pllB : s.pllB = some { mult := Config.pllbRatio.mult, num := Config.pllbRatio.num, denom := Config.pllbRatio.denom }
  ms2 : s.ms2 = none
  output2Off : Memory.read s.regs 18 = some 0x80
  committed : s.committed = some level

/-- On that configuration a frequency change to the committed level leaves the system running. -/
theorem ConfiguredByBoot.running {s : State} {level : Bool} (h : ConfiguredByBoot s level)
    (bootFirst : BootFirst (s.trace ++ changeFreqEvents level))
    (duties : MeetsOrderingDuties (writesOf (s.trace ++ changeFreqEvents level)) = true) :
    WiredRunning (((changeFreqState level s).setPc .idle).returns .nothing) where
  booted := by simp
  configured := by simpa using h.configured
  xtal := by simpa using h.xtal
  pllA := by simpa using h.pllA
  pllB := by simpa using h.pllB
  ms2 := by simpa using h.ms2
  selected := by
    have ctrl0 := read_changeFreqState_ctrl level s (o := .out0) (by decide)
    have ctrl1 := read_changeFreqState_ctrl level s (o := .out1) (by decide)
    simp only [State.returns_regs, State.setPc_regs]
    exact ⟨level, by simpa using h.committed, by simp, by simp, ctrl0, ctrl1⟩
  maskOpen := by simpa using read_changeFreqState_mask level s
  output2Off := by simpa using (read_changeFreqState_ctrl2 level s).trans h.output2Off
  bootFirst := by simpa using bootFirst
  duties := by simpa using duties
  maskLast := by
    simp only [State.returns_trace, State.setPc_trace, changeFreqState_trace, writesOf_append]
    exact getLast?_append_changeFreqEvents ..

theorem WiredRunning.returns {s : State} (h : WiredRunning s) (r : OpResult) : WiredRunning (s.returns r) :=
  { h with }

theorem WiredRunning.setPc {s : State} (h : WiredRunning s) {target : Pc} (booted : target ≠ .reset) :
    WiredRunning (s.setPc target) :=
  { h with booted }

theorem WiredRunning.drawPin {s : State} (h : WiredRunning s) : WiredRunning s.drawPin :=
  { h with }

/-- An event that writes nothing owes nothing. -/
theorem WiredRunning.emit {s : State} (h : WiredRunning s) {e : Event} (noWrite : writesOf [e] = []) :
    WiredRunning (s.emit e) :=
  { h with
    bootFirst := h.bootFirst.append [e]
    duties := by simpa [noWrite] using h.duties
    maskLast := by simpa [noWrite] using h.maskLast }

theorem WiredRunning.readPin {s : State} (h : WiredRunning s) : WiredRunning s.readPin :=
  h.drawPin.emit rfl

theorem WiredRunning.delay {s : State} (h : WiredRunning s) : WiredRunning s.delay :=
  h.emit rfl

/-- A new level accepted by a running system (R125). -/
theorem WiredRunning.retune {s : State} (h : WiredRunning s) (level : Bool) :
    WiredRunning (((changeFreqState level (s.commit level)).setPc .idle).returns .nothing) := by
  have config : ConfiguredByBoot (s.commit level) level := { h with committed := rfl }
  refine config.running (h.bootFirst.append _) ?_
  rw [writesOf_append]
  exact meetsOrderingDuties_append_changeFreq h.duties h.maskLast level

theorem WiredRunning.sample {s : State} (h : WiredRunning s) (c : Bool) : WiredRunning (sampleState c s) :=
  (h.readPin.setPc (by split <;> decide)).returns .nothing

theorem WiredRunning.confirm {s : State} (h : WiredRunning s) (c : Bool) : WiredRunning (confirmState c s) := by
  unfold confirmState
  split
  · exact (h.delay.readPin.setPc (by decide)).returns .nothing
  · exact h.delay.readPin.retune (!c)

/-- BOOT's configuration, once the level read is committed (R122). -/
theorem configuredByBoot_bootPlls (s : State) (level : Bool) :
    ConfiguredByBoot ((bootPlls s).readPin.commit level) level where
  configured := by simp
  xtal := by simp [bootPlls]
  pllA := by simp [bootPlls]
  pllB := by simp [bootPlls]
  ms2 := by simp [bootPlls]
  output2Off := by
    rw [State.commit_regs, State.readPin_regs, (Grew.bootPlls s).regs 18]
    rfl
  committed := rfl

/-- BOOT from a fresh reset establishes the running system (R122). -/
theorem wiredRunning_bootState {s : State} (fresh : s.trace = []) : WiredRunning (bootState s) := by
  have events : ((bootPlls s).readPin.commit (s.pinLevel 0)).trace = bootPrefix ++ [.pinRead (s.pinLevel 0)] := by
    simp [(Grew.bootPlls s).trace, fresh]
  refine (configuredByBoot_bootPlls s (s.pinLevel 0)).running ?_ ?_
  · rw [events]
    exact ⟨_, [], (List.append_nil _).symm⟩
  · rw [events]
    exact meetsOrderingDuties_boot _

/-! ### The invariant along a run -/

@[simp] theorem bootState_port (s : State) : (bootState s).port = s.port := by
  simp [bootState, bootPlls]

@[simp] theorem sampleState_port (c : Bool) (s : State) : (sampleState c s).port = s.port := rfl

@[simp] theorem confirmState_port (c : Bool) (s : State) : (confirmState c s).port = s.port := by
  unfold confirmState
  split <;> simp

/-- The wired system's own step always completes, and leaves it running. -/
theorem WiredInv.step_running {s : State} (h : WiredInv s) :
    ∃ t, step s = .next t ∧ t.port = [] ∧ WiredRunning t := by
  obtain ⟨port, ⟨inReset, fresh⟩ | running⟩ := h
  · exact ⟨_, step_reset port inReset, by simp [port], wiredRunning_bootState fresh⟩
  · obtain ⟨c, committed, -⟩ := running.selected
    cases pc : s.pc with
    | reset => exact absurd pc running.booted
    | idle => exact ⟨_, step_idle port committed pc, port, running.sample c⟩
    | settle => exact ⟨_, step_settle port committed pc, by simp [port], running.confirm c⟩

/-- After any step, and so after every further one, the wired system is running. -/
theorem WiredInv.run_running {s : State} (h : WiredInv s) (n : Nat) :
    ∃ t, (Sys2Proof.core.run (n + 1) s : Out) = .next t ∧ WiredRunning t := by
  induction n generalizing s with
  | zero =>
    obtain ⟨t, stepped, -, running⟩ := h.step_running
    exact ⟨t, run_next stepped 0, running⟩
  | succ n ih =>
    obtain ⟨t, stepped, port, running⟩ := h.step_running
    rw [run_next stepped]
    exact ih ⟨port, .inr running⟩

theorem wiredInv_resetWith (pins : List Bool) : WiredInv (resetWith pins) :=
  ⟨rfl, .inl ⟨rfl, rfl⟩⟩

/-- R120: whatever the switch does, the wired system is running from its first step on. -/
theorem wiredRunning_of_wiredRun {pins : List Bool} {n : Nat} {t : State} (h : wiredRun pins (n + 1) = .next t) :
    WiredRunning t := by
  obtain ⟨u, ran, running⟩ := (wiredInv_resetWith pins).run_running n
  cases ran.symm.trans h
  exact running

/-! ### The outputs of a running system (R27) -/

/-- The mask is open, and the control bytes of a frequency change power nothing down. -/
theorem WiredRunning.outputEnabled {s : State} (h : WiredRunning s) {o : OutputId} (tuned : o ≠ .out2) :
    s.outputEnabled o = true := by
  obtain ⟨c, -, -, -, ctrl0, ctrl1⟩ := h.selected
  have ctrl : Memory.read s.regs (msCtrl o).toNat = some (changeFreqCtrl c) := by
    cases o with
    | out0 => exact ctrl0
    | out1 => exact ctrl1
    | out2 => exact absurd rfl tuned
  rw [outputEnabled_of_read h.maskOpen ctrl]
  unfold changeFreqCtrl
  split <;> cases o <;> rfl

/-- Output 2 keeps INIT's power-down bit. -/
theorem WiredRunning.outputEnabled_out2 {s : State} (h : WiredRunning s) : s.outputEnabled .out2 = false := by
  rw [outputEnabled_of_read (o := .out2) h.maskOpen h.output2Off]
  rfl

end Sys2Proof.Safety
end

section
/-!
PROOFS. The statement of the family of spec/42_synth_model.md on runs of the wired system.
-/

namespace Sys2Proof.Proofs

open Sys2Proof.Machine Sys2Proof.Safety

/-- Settles O60: after its first step the wired system is running (`wiredRunning_of_wiredRun`), which names the
configuration, and its image decides which outputs are enabled. -/
theorem wiredSystemStaysConfigured : Obligations.WiredSystemStaysConfigured := by
  intro pins n t h
  have running := wiredRunning_of_wiredRun h
  obtain ⟨c, committed, ms0, ms1, -, -⟩ := running.selected
  exact ⟨running.configured, running.xtal, running.pllA, running.pllB, running.ms2,
    running.outputEnabled (by decide), running.outputEnabled (by decide), running.outputEnabled_out2,
    c, committed, ms0, ms1⟩

end Sys2Proof.Proofs
end

section
/-!
PROOFS. The family of spec/43_mode_controller.md: the whole state BOOT, CHANGE_FREQ and each half of POLL leave, where
they are refused, and what a settled switch lets the poll loop do.
-/

namespace Sys2Proof.Machine

open Sys2Proof.Safety

/-! ### The whole state after each sequence -/

/-- Two states are equal when they agree field by field. -/
theorem State.ext_fields {s t : State} (regs : s.regs = t.regs) (synthState : s.synthState = t.synthState)
    (xtal : s.xtal = t.xtal) (pllA : s.pllA = t.pllA) (pllB : s.pllB = t.pllB) (ms0 : s.ms0 = t.ms0)
    (ms1 : s.ms1 = t.ms1) (ms2 : s.ms2 = t.ms2) (pc : s.pc = t.pc) (committed : s.committed = t.committed)
    (trace : s.trace = t.trace) (port : s.port = t.port) (result : s.result = t.result)
    (pinInput : s.pinInput = t.pinInput) (pinReads : s.pinReads = t.pinReads) : s = t := by
  cases s
  cases t
  simp only [State.mk.injEq]
  exact ⟨regs, synthState, xtal, pllA, pllB, ms0, ms1, ms2, pc, committed, trace, port, result, pinInput, pinReads⟩

/-- CHANGE_FREQ touches the image, the records of outputs 0 and 1 and the trace (R126). -/
theorem changeFreqState_frame (level : Bool) (s : State) :
    changeFreqState level s = { s with
      regs := (changeFreqState level s).regs
      ms0 := some (changeFreqRecord level)
      ms1 := some (changeFreqRecord level)
      trace := s.trace ++ changeFreqEvents level } := by
  apply State.ext_fields <;> simp

/-- BOOT leaves the port alone and draws one level from the pin input (R122). -/
theorem bootState_frame (s : State) :
    bootState s = { s with
      regs := (bootState s).regs
      synthState := .configured
      xtal := some Config.bootXtal
      pllA := some { mult := 25, num := 193181, denom := 250000 }
      pllB := some { mult := Config.pllbRatio.mult, num := Config.pllbRatio.num, denom := Config.pllbRatio.denom }
      ms0 := some (changeFreqRecord (s.pinLevel 0))
      ms1 := some (changeFreqRecord (s.pinLevel 0))
      ms2 := none
      pc := .idle
      committed := some (s.pinLevel 0)
      trace := s.trace ++ (bootPrefix ++ [.pinRead (s.pinLevel 0)] ++ changeFreqEvents (s.pinLevel 0))
      pinInput := s.pinInput.tail
      pinReads := s.pinReads + 1
      result := .nothing } := by
  rw [← (Grew.bootState s).trace]
  apply State.ext_fields <;> simp [bootState, bootPlls]

/-- The first half of POLL draws one level and moves `mc.pc` by it (R124). -/
theorem sampleState_frame (c : Bool) (s : State) :
    sampleState c s = { s with
      pc := if s.pinLevel 0 = c then .idle else .settle
      trace := s.trace ++ [.pinRead (s.pinLevel 0)]
      pinInput := s.pinInput.tail
      pinReads := s.pinReads + 1
      result := .nothing } := by
  rw [← sampleState_pc c s]
  rfl

/-- The level is back at the committed one: the transition is discarded (R125). -/
theorem confirmState_frame_of_same {c : Bool} {s : State} (same : s.pinLevel 0 = c) :
    confirmState c s = { s with
      pc := .idle
      trace := s.trace ++ [.delay Config.settleMs, .pinRead c]
      pinInput := s.pinInput.tail
      pinReads := s.pinReads + 1
      result := .nothing } := by
  have trace := (Grew.confirmState c s).trace
  rw [same, if_pos rfl, List.append_nil] at trace
  rw [← trace, confirmState, if_pos same]
  rfl

/-- The level still differs: it is committed and CHANGE_FREQ runs (R125). -/
theorem confirmState_frame_of_moved {c : Bool} {s : State} (moved : s.pinLevel 0 ≠ c) :
    confirmState c s = { s with
      regs := (confirmState c s).regs
      ms0 := some (changeFreqRecord (!c))
      ms1 := some (changeFreqRecord (!c))
      pc := .idle
      committed := some (!c)
      trace := s.trace ++ ([.delay Config.settleMs, .pinRead (!c)] ++ changeFreqEvents (!c))
      pinInput := s.pinInput.tail
      pinReads := s.pinReads + 1
      result := .nothing } := by
  have trace := (Grew.confirmState c s).trace
  rw [if_neg moved, Bool.eq_not.2 moved] at trace
  rw [← trace]
  apply State.ext_fields <;> simp [confirmState, moved]

/-- The image after a committed transition: reading the pin and waiting record nothing (R37, R125). -/
theorem confirmState_recorded_of_moved {c : Bool} {s : State} (moved : s.pinLevel 0 ≠ c) :
    Recorded s.regs (confirmState c s).regs (changeFreqEvents (!c)) := fun a => by
  have recorded := (Grew.confirmState c s).regs a
  rw [if_neg moved, lastWrite_append] at recorded
  simpa [lastWrite] using recorded

/-! ### Where an operation is refused (U6, R124; logs 10 and 12) -/

theorem exec_boot_refused {s : State} (h : s.pc ≠ .reset) : exec .boot s = .refused .bootOutsideReset := by
  cases pc : s.pc with
  | reset => exact absurd pc h
  | idle | settle => simp only [exec, execBoot, bootOp, pc]

theorem exec_poll_refused_in_reset {s : State} (h : s.pc = .reset) : exec .poll s = .refused .pollBeforeBoot := by
  simp only [exec, execPoll, pollOp, pollHalf, h]

theorem exec_poll_refused_uncommitted {s : State} (h : s.pc ≠ .reset) (uncommitted : s.committed = none) :
    exec .poll s = .refused .pollWithoutCommitted := by
  cases pc : s.pc with
  | reset => exact absurd pc h
  | idle | settle => simp only [exec, execPoll, pollOp, pollHalf, pc, uncommitted, andThen_refused]

theorem exec_changeFreq_refused (level : Bool) {s : State} (h : s.pc = .settle) :
    exec (.changeFreq level) s = .refused .changeFreqWhileSettling := by
  simp only [exec, execChangeFreq, changeFreqOp, h]

/-! ### The poll loop -/

/-- In `SETTLE` the Mode Controller's own step is the POLL command (R127, log 11), also where both are refused. -/
theorem step_settle_eq_exec {s : State} (port : s.port = []) (settling : s.pc = .settle) :
    step s = exec .poll s := by
  simp only [step, fetch_nil port, wiredStep, settling, exec, execPoll, pollOp]

@[simp] theorem confirmState_pinLevel (c : Bool) (s : State) (k : Nat) :
    (confirmState c s).pinLevel k = s.pinLevel (k + 1) := by
  unfold confirmState
  split <;> simp

/-- A confirmation writes registers exactly when it commits (R125). -/
theorem writesOf_confirm_ne_nil (c level : Bool) :
    writesOf ([.delay Config.settleMs, .pinRead level] ++ if level = c then [] else changeFreqEvents (!c)) ≠ [] ↔
      level ≠ c := by
  by_cases same : level = c
  · simp [same, writesOf]
  · obtain ⟨d, b, events⟩ := changeFreqEvents_eq_retuneEvents (!c)
    simp [same, events, retuneEvents, writesOf]

/-- As long as the switch shows the committed level, the poll loop only reads the pin (R124, R128). -/
theorem run_samples {s : State} {c : Bool} {n : Nat} (port : s.port = []) (idle : s.pc = .idle)
    (committed : s.committed = some c) (steady : ∀ k, k < n → s.pinLevel k = c) :
    ∃ t, (Sys2Proof.core.run n s : Out) = .next t ∧ t.pc = .idle ∧ t.committed = some c ∧
      t.trace = s.trace ++ List.replicate n (.pinRead c) := by
  induction n generalizing s with
  | zero => exact ⟨s, rfl, idle, committed, by simp⟩
  | succ n ih =>
    have same : s.pinLevel 0 = c := steady 0 (by omega)
    have stays : (sampleState c s).pc = .idle := by simp [sampleState_pc, same]
    obtain ⟨t, ran, pc, level, trace⟩ := ih (s := sampleState c s) port stays committed
      fun k hk => by rw [sampleState_pinLevel]; exact steady (k + 1) (by omega)
    refine ⟨t, (run_next (step_idle port committed idle) n).trans ran, pc, level, ?_⟩
    rw [trace, (Grew.sampleState c s).trace, same, List.append_assoc]
    rfl

end Sys2Proof.Machine
end

section
/-!
PROOFS. The statements of the family of spec/43_mode_controller.md.
-/

namespace Sys2Proof.Proofs

open Sys2Proof.Machine Sys2Proof.Safety

/-- Settles O57: from `RESET` BOOT establishes the running system, and each half of POLL keeps it
(`WiredInv.step_running`). -/
theorem stepKeepsTheWiredSystemRunning : Obligations.StepKeepsTheWiredSystemRunning := by
  intro s inv
  obtain ⟨t, stepped, port, running⟩ := inv.step_running
  exact ⟨t, stepped, ⟨port, .inr running⟩, running⟩

/-- Settles O9: a command in `SETTLE` is one confirmation, which discards or commits. -/
theorem confirmCommitsOrDiscards : Obligations.ConfirmCommitsOrDiscards := by
  intro s c settling committed
  rw [exec_poll_confirm committed settling]
  refine ⟨fun same => ?_, fun moved => ⟨_, ?_, confirmState_recorded_of_moved moved⟩⟩
  · rw [confirmState_frame_of_same same]
  · rw [← confirmState_frame_of_moved moved]

/-- Settles O10: the sample is the step from `IDLE`, and the confirmation the step from `SETTLE`. -/
theorem pollCommandComposesTheTwoHalves : Obligations.PollCommandComposesTheTwoHalves := by
  intro s c port idle committed
  rw [step_idle port committed idle, andThen_next]
  by_cases same : s.pinLevel 0 = c
  · have stays : (sampleState c s).pc ≠ .settle := by simp [sampleState_pc, same]
    rw [exec_poll_sample committed idle same, if_neg stays]
  · have settles : (sampleState c s).pc = .settle := by simp [sampleState_pc, same]
    rw [exec_poll_both committed idle same, if_pos settles,
      step_settle (s := sampleState c s) port committed settles]

/-- Settles O40: BOOT's frame (`bootState_frame`), its writes recorded. -/
theorem bootProgramsThePllsAndCommits : Obligations.BootProgramsThePllsAndCommits := by
  intro s inReset
  refine ⟨(bootState s).regs, ?_, (Grew.bootState s).regs⟩
  rw [exec_boot_eq inReset, ← bootState_frame]

/-- Settles O41: CHANGE_FREQ's frame (`changeFreqState_frame`), its twenty writes recorded. -/
theorem changeFreqRetunesTheTwoOutputs : Obligations.ChangeFreqRetunesTheTwoOutputs := by
  intro level s notSettling
  refine ⟨(changeFreqState level s).regs, ?_, (Grew.changeFreqState level s).regs⟩
  rw [exec_changeFreq_eq level notSettling, changeFreqState_frame]
  rfl

/-- Settles O42: the sample alone, or the sample and a confirmation that discards or commits. -/
theorem pollDebouncesTheSwitch : Obligations.PollDebouncesTheSwitch := by
  intro s c idle committed
  have second : (sampleState c s).pinLevel 0 = s.pinLevel 1 := sampleState_pinLevel c s 0
  refine ⟨fun same => ?_, fun moved back => ?_, fun moved stays => ?_⟩
  · rw [exec_poll_sample committed idle same, sampleState_frame, same, if_pos rfl, ← idle]
  · rw [exec_poll_both committed idle moved, confirmState_frame_of_same (second.trans back), sampleState_frame,
      Bool.eq_not.2 moved, ← idle, List.append_assoc]
    rfl
  · have moved' : (sampleState c s).pinLevel 0 ≠ c := second ▸ stays
    refine ⟨(confirmState c (sampleState c s)).regs, ?_, confirmState_recorded_of_moved moved'⟩
    rw [exec_poll_both committed idle moved, confirmState_frame_of_moved moved', (Grew.sampleState c s).trace,
      Bool.eq_not.2 moved, ← idle, List.append_assoc]
    rfl

/-- Settles O46: one sample and one confirmation commit the level (R125); from then on it is the committed one, and
polls only read it (`run_samples`). -/
theorem stableTransitionTriggersChangeFreqOnce : Obligations.StableTransitionTriggersChangeFreqOnce := by
  intro s c n port idle committed steady
  have moved : s.pinLevel 0 ≠ c := Bool.eq_not.1 (steady 0 (by omega))
  have moved' : (sampleState c s).pinLevel 0 ≠ c := by
    rw [sampleState_pinLevel]
    exact Bool.eq_not.1 (steady 1 (by omega))
  have settles : (sampleState c s).pc = .settle := by simp [sampleState_pc, moved]
  obtain ⟨t, ran, pc, level, trace⟩ := run_samples (s := confirmState c (sampleState c s)) (c := !c) (n := n)
    (by simp [port]) rfl (by rw [confirmState_frame_of_moved moved'])
    fun k hk => by
      rw [confirmState_pinLevel, sampleState_pinLevel]
      exact steady (k + 2) (by omega)
  refine ⟨t, ?_, pc, level, ?_⟩
  · exact (run_next (step_idle port committed idle) (n + 1)).trans
      ((run_next (step_settle (s := sampleState c s) port committed settles) n).trans ran)
  · rw [trace, confirmState_frame_of_moved moved', (Grew.sampleState c s).trace, Bool.eq_not.2 moved]
    simp

/-- Settles O47: a poll that ends with its sample writes nothing, and the confirmation after it writes exactly when it
commits (`writesOf_confirm_ne_nil`). -/
theorem pollWritesOnlyOnAConfirmedTransition : Obligations.PollWritesOnlyOnAConfirmedTransition := by
  intro s t c es idle committed h added
  by_cases same : s.pinLevel 0 = c
  · have sample := Completes.pollSample committed idle same
    cases sample.exec_eq.symm.trans h
    rw [List.append_cancel_left (added.symm.trans sample.grew.trace)]
    simp [writesOf, same]
  · have both := Completes.pollBoth committed idle same
    cases both.exec_eq.symm.trans h
    rw [List.append_cancel_left (added.symm.trans both.grew.trace)]
    exact (writesOf_confirm_ne_nil c (s.pinLevel 1)).trans (and_iff_right same).symm

/-- Settles O58: the reset state meets the invariant, under which every further step completes and leaves `RESET`
(`WiredInv.run_running`). -/
theorem wiredSystemNeverStops : Obligations.WiredSystemNeverStops := by
  intro pins n
  cases n with
  | zero => exact ⟨resetWith pins, rfl, by simp [resetWith, State.reset]⟩
  | succ n =>
    obtain ⟨t, ran, running⟩ := (wiredInv_resetWith pins).run_running n
    exact ⟨t, ran, by simp [running.booted]⟩

/-- Settles O7: the two steps are those of `step_reset` and `step_settle_eq_exec`. -/
theorem stepWithoutCommandIsTheModeControllers : Obligations.StepWithoutCommandIsTheModeControllers := by
  intro s port
  exact ⟨fun inReset => (step_reset port inReset).trans (exec_boot_eq inReset).symm,
    fun settling => step_settle_eq_exec port settling⟩

/-- Settles O8: the step from `IDLE` is the sample (`step_idle`), whose frame is `sampleState_frame`. -/
theorem wiredSampleReadsThePinOnce : Obligations.WiredSampleReadsThePinOnce := by
  intro s c port idle committed
  rw [step_idle port committed idle, sampleState_frame]

/-- Settles O43: one refusal for each operation out of place. -/
theorem outOfPlaceOperationsAreRefused : Obligations.OutOfPlaceOperationsAreRefused := by
  intro s
  exact ⟨exec_boot_refused, exec_poll_refused_in_reset, exec_poll_refused_uncommitted,
    fun level settling => exec_changeFreq_refused level settling⟩

end Sys2Proof.Proofs
end

section
/-!
PROOFS. The family of spec/60_exceptions.md: what SETUP_PLL, SETUP_MS and the wired sequences do over the variant
`RANGE_CHECK = on` (R142), and that the wired constants meet the operand duty (R168, R171).
-/

namespace Sys2Proof.Machine

open Sys2Proof.Safety

/-! ### The set-ups over the variant (R142) -/

theorem operandDuty_iff {z : TripleZ} {denom : U32} :
    operandDuty z denom = true ↔ z.inRange = true ∧ denom ≠ 0 := by
  simp [operandDuty, and_comm]

/-- R82's case asks for a denominator of 0. -/
theorem fracUndefined_of_denom_ne_zero (v : Config.Variant) (num : U32) {denom : U32} (h : denom ≠ 0) :
    fracUndefined v num denom = false := by
  unfold fracUndefined
  split
  · rw [beq_false_of_ne h, Bool.and_false]
  · rfl

/-- The check changes nothing where the operand duty is met, and elsewhere raises in the state it was called in. -/
theorem setupPllSeq_on (mode : Config.FracMode) (p : PllId) (mult : Byte) (num denom : U32) (s : State) :
    setupPllSeq ⟨mode, .on⟩ p mult num denom s =
      if (encodePllZ mode mult num denom).inRange = true ∧ denom ≠ 0 then setupPllSeq ⟨mode, .off⟩ p mult num denom s
      else .fault (.rangeError { op := .encPll, a := mult.setWidth 32, num := num, denom := denom } s) :=
  withTriple_checkRange_on ..

theorem setupMsSeq_on (mode : Config.FracMode) (o : OutputId) (src : PllId) (div num denom : U32) (s : State) :
    setupMsSeq ⟨mode, .on⟩ o src div num denom s =
      if (encodeMsZ mode div num denom).inRange = true ∧ denom ≠ 0 then setupMsSeq ⟨mode, .off⟩ o src div num denom s
      else .fault (.rangeError { op := .encMs, a := div, num := num, denom := denom } s) :=
  withTriple_checkRange_on ..

/-- Outside R82's case SETUP_PLL is its sequence, brought to its end. -/
theorem setupPllOp_eq_seq {v : Config.Variant} {num denom : U32} (defined : fracUndefined v num denom = false)
    (p : PllId) (mult : Byte) (s : State) :
    setupPllOp v p mult num denom s = andThen (setupPllSeq v p mult num denom s) finish := by
  rw [setupPllOp, defined, if_neg Bool.false_ne_true]

/-- Outside R82's case SETUP_MS is its sequence, brought to its end. -/
theorem setupMsOp_eq_seq {v : Config.Variant} {num denom : U32} (defined : fracUndefined v num denom = false)
    (o : OutputId) (src : PllId) (div : U32) (s : State) :
    setupMsOp v o src div num denom s = andThen (setupMsSeq v o src div num denom s) finish := by
  rw [setupMsOp, defined, if_neg Bool.false_ne_true]

/-! ### The wired constants (R171) -/

/-- The NTSC ratio's denominator is below 2^18, where both fraction modes give one triple (R76). -/
theorem encodePllZ_pllaRatio (mode : Config.FracMode) :
    encodePllZ mode 25 193181 250000 = { p1 := 2786, p2 := 227168, p3 := 250000 } := by
  cases mode <;> decide

theorem operandDuty_pllaRatio (mode : Config.FracMode) :
    operandDuty (encodePllZ mode 25 193181 250000) 250000 = true := by
  rw [encodePllZ_pllaRatio]
  decide

/-- The integer path reads no fraction, so its duty is the same in both modes. -/
theorem operandDuty_integer (mode : Config.FracMode) {div : U32} (low : 4 ≤ div.toNat) (high : div.toNat < 2 ^ 11) :
    operandDuty (encodeMsZ mode div 0 1) 1 = true := by
  refine operandDuty_iff.2 ⟨TripleZ.inRange_iff.2 ?_, by decide⟩
  have one : (1 : U32).toNat = 1 := rfl
  simp only [encodeMsZ_integer, integerPath, one]
  omega

/-- CHANGE_FREQ divides by 26 or by 30, whatever the level (R126). -/
theorem operandDuty_levelTarget (mode : Config.FracMode) (level : Bool) :
    operandDuty (encodeMsZ mode (levelTarget level).2 0 1) 1 = true := by
  unfold levelTarget
  split
  · exact operandDuty_integer mode (div := 26) (by decide) (by decide)
  · exact operandDuty_integer mode (div := 30) (by decide) (by decide)

/-! ### The wired sequences over the variant (R142, R171) -/

/-- CHANGE_FREQ never raises: both its set-ups meet the duty. -/
theorem changeFreqSeq_on (mode : Config.FracMode) (level : Bool) (s : State) :
    changeFreqSeq ⟨mode, .on⟩ level s = changeFreqSeq ⟨mode, .off⟩ level s := by
  simp only [changeFreqSeq, setupMsSeq_on, ← operandDuty_iff, operandDuty_levelTarget, if_true]

/-- The state in which BOOT begins to set up PLL B: the pin configured, INIT done, PLL A set up (R122). -/
def bootPllA (s : State) : State :=
  setupPllWith .a { mult := 25, num := 193181, denom := 250000 } (encodePllZ .binary32 25 193181 250000).trunc
    (initSeq Config.bootXtal s.configurePin)

/-- The set-up of PLL A in BOOT never raises, and both fraction modes leave the same state. -/
theorem setupPllSeq_pllaRatio (v : Config.Variant) (s : State) :
    setupPllSeq v .a Config.pllaRatio.mult Config.pllaRatio.num Config.pllaRatio.denom
      (initSeq Config.bootXtal s.configurePin) = .next (bootPllA s) := by
  have off (mode : Config.FracMode) : setupPllSeq ⟨mode, .off⟩ .a 25 193181 250000
      (initSeq Config.bootXtal s.configurePin) = .next (bootPllA s) := by
    rw [bootPllA, encodePllZ_pllaRatio .binary32, ← encodePllZ_pllaRatio mode]
    rfl
  obtain ⟨mode, check⟩ := v
  cases check with
  | off => exact off mode
  | on => exact (setupPllSeq_on ..).trans ((if_pos (operandDuty_iff.1 (operandDuty_pllaRatio mode))).trans (off mode))

/-- Only the set-up of PLL B can raise in BOOT, and only for the OPEN PAL ratio. -/
theorem bootSeq_on (mode : Config.FracMode) (s : State) :
    bootSeq ⟨mode, .on⟩ s =
      if palRatioInRange mode = true then bootSeq ⟨mode, .off⟩ s
      else .fault (.rangeError
        { op := .encPll, a := Config.pllbRatio.mult.setWidth 32, num := Config.pllbRatio.num,
          denom := Config.pllbRatio.denom } (bootPllA s)) := by
  unfold bootSeq
  rw [setupPllSeq_pllaRatio, setupPllSeq_pllaRatio, andThen_next, andThen_next, setupPllSeq_on]
  by_cases duty : palRatioInRange mode = true
  · rw [if_pos duty, if_pos (operandDuty_iff.1 duty)]
    simp only [commitSeq, changeFreqSeq_on]
  · rw [if_neg duty, if_neg (mt operandDuty_iff.2 duty), andThen_fault]

/-- The fifteen events of BOOT before PLL B (R122). -/
theorem Grew.bootPllA (s : State) :
    Grew s (bootPllA s) ([.pinConfig Config.swPin Config.swMode] ++ initEvents Config.bootXtal ++ ntscPllEvents) := by
  have pin : Grew s s.configurePin [.pinConfig Config.swPin Config.swMode] := ⟨rfl, fun a => by simp [lastWrite]⟩
  have ntsc : blockEvents (pllBase .a) (pack (encodePllZ .binary32 25 193181 250000).trunc) ++
      [.regWrite 177 (pllResetByte .a)] = ntscPllEvents := by decide
  rw [← ntsc]
  exact (pin.trans (.initSeq Config.bootXtal _)).trans (.setupPllWith ..)

/-- Up to PLL B, BOOT has moved no field of the sequencer or of the environment, and the records are those of INIT and
PLL A. -/
theorem bootPllA_frame (s : State) :
    bootPllA s = { s with
      regs := (bootPllA s).regs
      synthState := .disabled
      xtal := some Config.bootXtal
      pllA := some { mult := 25, num := 193181, denom := 250000 }
      pllB := none
      ms0 := none
      ms1 := none
      ms2 := none
      trace := s.trace ++
        ([.pinConfig Config.swPin Config.swMode] ++ initEvents Config.bootXtal ++ ntscPllEvents) } := by
  rw [← (Grew.bootPllA s).trace]
  apply State.ext_fields <;> simp [bootPllA]

end Sys2Proof.Machine
end

section
/-!
PROOFS. The statements of the family of spec/60_exceptions.md.
-/

namespace Sys2Proof.Proofs

open Sys2Proof.Machine Sys2Proof.Safety

/-- Settles O38: the check comes before the first write of the sequence (`setupPllSeq_on`, `setupMsSeq_on`); over the
variant R82's refusal gives way to it, and where it passes `denom` is not 0 and nothing is refused. -/
theorem rangeCheckRaisesBeforeAnyWrite : Obligations.RangeCheckRaisesBeforeAnyWrite := by
  intro mode num denom s
  have notRefused : fracUndefined ⟨mode, .on⟩ num denom = false := rfl
  refine ⟨fun p mult => ?_, fun o src div => ?_⟩
  · rw [setupPllOp_eq_seq notRefused, setupPllSeq_on]
    split
    next duty => rw [setupPllOp_eq_seq (fracUndefined_of_denom_ne_zero _ num duty.2)]
    next => rfl
  · rw [setupMsOp_eq_seq notRefused, setupMsSeq_on]
    split
    next duty => rw [setupMsOp_eq_seq (fracUndefined_of_denom_ne_zero _ num duty.2)]
    next => rfl

/-- Settles O39: the wired constants meet the duty in both modes, CHANGE_FREQ has no other operands
(`changeFreqSeq_on`), and BOOT has the PAL ratio besides (`bootSeq_on`), raising in the state of `bootPllA_frame`. -/
theorem wiredConstantsAreInRange : Obligations.WiredConstantsAreInRange := by
  intro mode
  refine ⟨operandDuty_pllaRatio mode, operandDuty_integer mode (by decide) (by decide),
    operandDuty_integer mode (by decide) (by decide), fun level s => ?_, fun s inReset => ?_⟩
  · simp only [changeFreqOp, changeFreqSeq_on]
  · refine ⟨(bootPllA s).regs, _, rfl, ?_, (Grew.bootPllA s).regs⟩
    rw [← bootPllA_frame]
    simp only [bootOp, inReset, bootSeq_on]
    split
    · rfl
    · rw [andThen_fault]

end Sys2Proof.Proofs
end

section
/-!
PROOFS. The family of spec/70_reset_and_hazards.md: which registers a divider block leaves unwritten (R164, R169), and
that the ratios of the wired system meet the operand duty (R168, R171).
-/

namespace Sys2Proof.Machine

open Sys2Proof.Safety

/-- The events an operation adds are those of its way to complete. -/
theorem completes_of_added {i : Instr} {s t : State} {es : List Event} (h : exec i s = .next t)
    (added : t.trace = s.trace ++ es) : Completes i s es t := by
  obtain ⟨es', completes⟩ := exec_completes h
  rwa [List.append_cancel_left (added.symm.trans completes.grew.trace)]

/-! ### What a divider block does not write -/

/-- An address that is written has a last byte. -/
theorem lastWrite_isSome_of_mem {es : List Event} {addr v : Byte} (written : .regWrite addr v ∈ es) :
    (lastWrite es addr.toNat).isSome := by
  induction es with
  | nil => cases written
  | cons e es ih =>
    rcases List.mem_cons.1 written with rfl | later
    · simp [lastWrite]
    · cases e <;> simp [lastWrite, ih later]

theorem not_mem_blockEvents {base addr : Byte} (b : Block) (noWrap : base.toNat + 8 ≤ 256)
    (outside : addr.toNat < base.toNat ∨ base.toNat + 8 ≤ addr.toNat) (v : Byte) :
    .regWrite addr v ∉ blockEvents base b := fun written => by
  have found := lastWrite_isSome_of_mem written
  rw [lastWrite_blockEvents base b noWrap, if_neg (by omega)] at found
  cases found

/-- The reset trigger stands outside both PLL blocks. -/
theorem pllReset_not_mem_blockEvents (p : PllId) (b : Block) (v : Byte) :
    .regWrite 177 v ∉ blockEvents (pllBase p) b := by
  have range := pllBase_range p
  have reset : (177 : Byte).toNat = 177 := rfl
  exact not_mem_blockEvents b (by omega) (by omega) v

/-- An output's control register stands outside its block. -/
theorem msCtrl_not_mem_blockEvents (o : OutputId) (b : Block) (v : Byte) :
    .regWrite (msCtrl o) v ∉ blockEvents (msBase o) b := by
  have range := msBase_range o
  have ctrlRange := msCtrl_range o
  exact not_mem_blockEvents b (by omega) (by omega) v

end Sys2Proof.Machine

namespace Sys2Proof.Safety

open Sys2Proof.Machine

/-! ### The operands of the wired system (R168, R171) -/

/-- The record of a frequency change meets the duty, whatever the level. -/
theorem operandDuty_changeFreqRecord (level : Bool) :
    operandDuty (encodeMsZ .binary32 (changeFreqRecord level).div (changeFreqRecord level).num
      (changeFreqRecord level).denom) (changeFreqRecord level).denom = true := by
  rw [← changeFreqRecord_eq]
  exact operandDuty_levelTarget .binary32 level

/-- The NTSC ratio and the records of a frequency change meet the duty; that of PLL B is the OPEN PAL ratio. -/
theorem WiredRunning.operandsInRange {s : State} (h : WiredRunning s) : OperandsInRange s := by
  obtain ⟨c, -, ms0, ms1, -, -⟩ := h.selected
  refine ⟨fun r pllA => ?_, fun pal r pllB => ?_, fun o r ms => ?_⟩
  · cases h.pllA.symm.trans pllA
    exact operandDuty_pllaRatio .binary32
  · cases h.pllB.symm.trans pllB
    exact pal
  · cases o with
    | out0 => cases ms0.symm.trans ms; exact operandDuty_changeFreqRecord c
    | out1 => cases ms1.symm.trans ms; exact operandDuty_changeFreqRecord c
    | out2 => cases h.ms2.symm.trans ms

/-- Before BOOT nothing is set up. -/
theorem operandsInRange_resetWith (pins : List Bool) : OperandsInRange (resetWith pins) := by
  refine ⟨fun r pllA => ?_, fun _ r pllB => ?_, fun o r ms => ?_⟩
  · cases pllA
  · cases pllB
  · cases o <;> cases ms

end Sys2Proof.Safety
end

section
/-!
PROOFS. The statements of the family of spec/70_reset_and_hazards.md.
-/

namespace Sys2Proof.Proofs

open Sys2Proof.Machine Sys2Proof.Safety

/-- Settles O34: the events are those of the operation's one way to complete, and neither the reset trigger nor the
control register stands in the block. -/
theorem resetAndControlComeAfterTheirBlock : Obligations.ResetAndControlComeAfterTheirBlock := by
  refine ⟨fun p mult num denom s t es h added => ?_, fun o src div num denom s t es h added => ?_,
    fun p p1 p2 p3 s => ?_⟩
  · cases completes_of_added h added with
    | setupPll => exact ⟨_, _, rfl, pllReset_not_mem_blockEvents p _⟩
  · cases completes_of_added h added with
    | setupMs => exact ⟨_, _, rfl, msCtrl_not_mem_blockEvents o _⟩
  · have completes := Completes.wrDivblk (base := pllBase p) (p1 := p1) (p2 := p2) (p3 := p3) (s := s)
    exact ⟨_, _, completes.exec_eq, completes.grew.trace, pllReset_not_mem_blockEvents p _⟩

/-- Settles O59: before its first step the wired system has written and set up nothing; from then on it is running
(`wiredRunning_of_wiredRun`), and a running system has met every duty. -/
theorem wiredSystemMeetsEveryDuty : Obligations.WiredSystemMeetsEveryDuty := by
  intro pins n t h
  cases n with
  | zero =>
    cases h
    exact ⟨rfl, absurd rfl, operandsInRange_resetWith pins⟩
  | succ n =>
    have running := wiredRunning_of_wiredRun h
    exact ⟨running.duties, fun _ => running.bootFirst, running.operandsInRange⟩

end Sys2Proof.Proofs
end
